-- ==== Sys2Proof/Word.lean ====
section
/-! DEFINITION. The two word types of the part's ports: a Command Port byte (chapter 11, section 11.3) and a
Station Link word (chapter 11, section 11.2). Masses, counts and times are whole numbers (scope file, "Mass" and
"Time"), so they are `Nat` or `Int` and never bit vectors. -/

namespace Sys2Proof

/-- One byte on the Command Port. -/
abbrev Byte := BitVec 8

/-- One word on the Station Link (R144: "Every link word is 32 bits"). -/
abbrev LinkWord := BitVec 32

end Sys2Proof
end

