-- ==== Sys2Proof/Syntax.lean ====
section
/-! DEFINITION. The commands of the part: one constructor for each row of spec/opcode_table.json.

A row named after a host command is the event of TAKING the latched frame of that command (R162: "Taking a latched
command is an event of its own, and it follows the end of its window"). Its parameters are the bytes of that frame,
which COMMAND_WINDOW_END has latched in the response buffer, so those rows have no operand of their own. -/

namespace Sys2Proof

inductive Instr where
  -- Host commands, in the order of the table of section 9.3: the latched frame is taken (R162).
  | setStation | readStation
  | setTareClass | readTareClass
  | openBulk | mixBulk | settleCharge | spendBulk | freeBulk | readBulk
  | openLot | closeLot | declareLot | retireLot | drawSample | readLot | readDeclaration
  | mapLane | unmapLane | holdLane | holdLaneForce | releaseLane | readLane
  | readChest | assignHeld | returnChest | voidChest
  | pauseHead | resumeHead | flushHead | reprint | readHead
  | setVerify | verifyScale | cancelVerify
  | readNotices | clearNotices | setNoticeEnables
  | readPart | purge
  /-- A latched frame whose code names no command is taken (R162). -/
  | unknownCommand
  /-- A command window ends (R161). `bytes` are all the bytes the host sent in it, the command code first. -/
  | commandWindowEnd (bytes : List Byte)
  /-- A read window (R163). `clocked` is how many bytes the host clocks after the read code. -/
  | readWindow (clocked : Nat)
  /-- The part opens a link cycle (R144). -/
  | linkCycle
  /-- The inbound half of the slot of address `station` (R145): the word that arrives, or none. -/
  | inboundWord (station : Nat) (word : Option LinkWord)
  | announceWindowExpiry (station : Nat)
  | stationLost (station : Nat)
  | rejoinInhibitExpiry (station : Nat)
  | refusalExpiry (station : Nat)
  -- The owner of the call in the slot of `station` takes it (R90, R110, R138, R52, R55, R120, R121).
  | callGross (station : Nat)
  | callTare (station : Nat)
  | callTest (station : Nat)
  | callCharge (station : Nat)
  | callDone (station : Nat)
  | replyDone (station : Nat)
  | replyFault (station : Nat)
  -- Timer expiries, each an event of its own.
  | markTimeout (station : Nat)
  | intervalExpiry (station : Nat)
  | periodExpiry (station : Nat)
  | graceExpiry (station : Nat)
  | purgeComplete
  -- Events on the supply and reset lines (chapter 10).
  | pwrgoodFall | resetAssert | pwrgoodRise | resetRelease
  | vbakBelowHoldingLevel | supplyFailsWithoutPwrgoodFall
  deriving DecidableEq, Repr

end Sys2Proof
end

