-- ==== Sys2Proof/Decode.lean ====
section
/-! DEFINITION. The part has no instruction words: spec/opcode_table.json gives no bits to any of its 67 rows
(spec/98_reader.md: n_rows_with_fixed 0, n_rows_with_fields 0), so no word spells a command. What the part does
decode, command frames and link words, is in Machine/Operands.lean. -/

namespace Sys2Proof

/-- The command that a word spells by the table's bits: none, for the table gives none. -/
def decodeTableWord (_nbits _w : Nat) : Option Instr := none

end Sys2Proof
end

