-- ==== Sys2Proof/Config.lean ====
section
/-! DEFINITION. The numbers the part is built to (scope file, "Numbers and Limits"; each is specified in the rule
cited beside it), and the values that the manual leaves open. -/

namespace Sys2Proof.Config

/-- Lot slots (R5 check 1). -/
abbrev lotSlots : Nat := 48
/-- Chest records (section 2.1). -/
abbrev chestRecords : Nat := 2048
/-- The commitment budget of all non-free lots (R4). -/
abbrev commitmentBudget : Nat := 1984
/-- Capacity of the hold pool (R34). -/
abbrev poolCapacity : Nat := 64
/-- Bulk slots (R50 check 1). -/
abbrev bulkSlots : Nat := 16
/-- Jobs a mark queue holds at most (R113). -/
abbrev queueCapacity : Nat := 16
/-- Tare class entries (R2). -/
abbrev tareClasses : Nat := 8
/-- Value at which the 16-bit link counters and the charge count stay (R145, R55). -/
abbrev counterTop : Nat := 65535
/-- Silent cycles that lose an ACTIVE station (R150). -/
abbrev lossSilence : Nat := 25
/-- Top of the silence count, and silent cycles that end a refusal (R146, R149). -/
abbrev silenceTop : Nat := 500
/-- Cycles of the announce window (R147). -/
abbrev windowCycles : Nat := 250
/-- Cycles of the rejoin inhibit (R150). -/
abbrev inhibitCycles : Nat := 500
/-- Length of a link cycle in ms (R144). -/
abbrev cycleMs : Nat := 4
/-- Length of a season purge in ms (R178). -/
abbrev purgeMs : Nat := 35
/-- The read code that opens a read window (section 11.3). -/
abbrev readCode : Byte := 0x00
/-- The filler byte (section 11.3). -/
abbrev filler : Byte := 0xFF
/-- Vendor code, part code and revision number of READ_PART (section 11.3). -/
abbrev vendorCode : Nat := 0x0D5E
abbrev partCode : Nat := 0x2416
abbrev revision : Nat := 1

/-- FREE VALUE (assumption 7). A mass is sent in four bytes, signed (R183). The manual does not say which four bytes
stand for a mass that four signed bytes cannot hold (a charged total K above 2 147 483 647 g). They are this
constant of the mass, of which nothing can be proved. -/
opaque massOutsideFormat : Int → BitVec 32

/-- FREE VALUE (assumption 12). The index of the next mark word to send lies in 0 to 10 (R116). Once word 10 has gone
there is no next word, and the manual does not say what the index is then: it is this constant, of which nothing but its
range can be proved. -/
opaque indexAfterLastWord : Fin 11

/-- FREE VALUE (assumption 16). One update may raise a notice kind for several records that its rule takes in no stated
order; the last source is then the one taken last (R167). Which of the listed records that is, is the entry at this
place, of which nothing can be proved. -/
opaque takenLast : List Nat → Nat

end Sys2Proof.Config
end

