-- ==== Sys2Proof/Machine/Table.lean ====
section
/-! DEFINITION. How the part's record tables are kept: a list of (number, record) pairs in ONE canonical form, the
numbers strictly rising, so that equal tables are equal lists. A number that is not listed is a record that is not in
use (a FREE lot, bulk or chest, an UNMAPPED lane, an unset tare class) or, for the tables whose records are always
present (stations, heads, verification records, notices, wait kinds), a record that stands as a cold start leaves it. -/

namespace Sys2Proof.Machine

/-- A sparse table of records by number. -/
abbrev Table (α : Type) := List (Nat × α)

/-- The record of number `i`, if one is listed. -/
def Table.get? {α : Type} : Table α → Nat → Option α
  | [], _ => none
  | (k, v) :: m, i => if k = i then some v else Table.get? m i

/-- Every entry but those of number `i`. -/
def Table.erase {α : Type} (m : Table α) (i : Nat) : Table α := m.filter (fun e => e.1 != i)

/-- The entry (i, v) put at its place. -/
def Table.insert {α : Type} : Table α → Nat → α → Table α
  | [], i, v => [(i, v)]
  | (k, w) :: m, i, v => if i < k then (i, v) :: (k, w) :: m else (k, w) :: Table.insert m i v

/-- Writes the record of number `i`, or takes it out of use. -/
def Table.put {α : Type} (m : Table α) (i : Nat) (o : Option α) : Table α :=
  match o with
  | none => Table.erase m i
  | some v => Table.insert (Table.erase m i) i v

/-- Reads a table whose records are always present: an unlisted one is `d`. -/
def Table.getD {α : Type} (d : α) (m : Table α) (i : Nat) : α := (Table.get? m i).getD d

/-- Writes a table whose records are always present: a record equal to `d` is not listed. -/
def Table.setD {α : Type} [DecidableEq α] (d : α) (m : Table α) (i : Nat) (v : α) : Table α :=
  Table.put m i (if v = d then none else some v)

/-- Rewrites the record of number `i`, if one is listed. -/
def Table.modify {α : Type} (m : Table α) (i : Nat) (f : α → α) : Table α :=
  match Table.get? m i with
  | some v => Table.put m i (some (f v))
  | none => m

/-- Every record rewritten in place. -/
def Table.mapVals {α : Type} (f : Nat → α → α) (m : Table α) : Table α := m.map (fun e => (e.1, f e.1 e.2))

/-- The first entry, in rising number, whose record satisfies `p`. -/
def Table.find {α : Type} (p : Nat → α → Bool) : Table α → Option (Nat × α)
  | [] => none
  | (k, v) :: m => if p k v then some (k, v) else Table.find p m

/-- The numbers are strictly rising. -/
def Table.sorted {α : Type} : Table α → Bool
  | [] => true
  | (k, _) :: m => m.all (fun e => decide (k < e.1)) && Table.sorted m

/-- The canonical form of a table whose records are always present: rising, and no record as a cold start leaves it. -/
def Table.canonical {α : Type} [DecidableEq α] (d : α) (m : Table α) : Bool :=
  Table.sorted m && m.all (fun e => decide (e.2 ≠ d))

end Sys2Proof.Machine
end

