-- ==== Sys2Proof/Machine/State.lean ====
section
/-! DEFINITION. Every record, setting, collection and line of the part, as plain data, and the part as a cold start
leaves it. A field that the manual calls optional is an `Option`, or stands inside the constructor of the state in which
it is present, so that an absent field has no value (scope file, "Optional fields"). -/

namespace Sys2Proof.Machine

/-! ## Lots (section 1.1) and tare classes (section 1.2) -/

/-- States of a non-free lot; a FREE slot is not listed in the table. -/
inductive LotState where
  | opened | packing | finishing | complete | declared
  deriving DecidableEq, Repr

inductive FinishCause where
  | filled | closed
  deriving DecidableEq, Repr

/-- The declaration snapshot (R20). -/
structure Declaration where
  count : Nat
  declaredNet : Nat
  invoiceNet : Int
  grossTotal : Nat
  tareTotal : Nat
  averageTare : Nat
  excess : Int
  giveaway : Nat
  tareSpread : Nat
  tareMixed : Bool
  offRecipe : Bool
  reweighedCount : Nat
  sampledCount : Nat
  sampleTotal : Nat
  deriving DecidableEq, Repr

/-- A non-free lot record (section 1.1). -/
structure Lot where
  state : LotState
  invoice : Nat
  garden : List Byte
  grade : List Byte
  season : Nat
  bulk : Nat
  tareClass : Nat
  /-- Declared net D. -/
  declNet : Nat
  /-- Recording step r. -/
  step : Nat
  /-- Upper margin U. -/
  margin : Nat
  planned : Nat
  sampleLimit : Nat
  overmark : Bool
  /-- Accepted count a. -/
  accepted : Nat
  /-- Tentative count t. -/
  tentative : Nat
  outstanding : Nat
  cause : Option FinishCause
  grossTotal : Nat
  tareTotal : Nat
  netTotal : Nat
  minTare : Option Nat
  maxTare : Option Nat
  /-- Sample total S. -/
  sampleTotal : Nat
  sampledCount : Nat
  reweighedCount : Nat
  mappedLanes : Nat
  declaration : Option Declaration
  deriving DecidableEq, Repr

/-- A set tare class entry; an unset one is not listed. -/
structure TareClass where
  nominal : Nat
  window : Option (Nat × Nat)
  spread : Nat
  deriving DecidableEq, Repr

/-! ## Chests (section 2.1) -/

inductive TareSource where
  | nominal | individual
  deriving DecidableEq, Repr

inductive FailReason where
  | resolution | short | over
  deriving DecidableEq, Repr

inductive HoldReason where
  | secondFail | balance | unassigned | forced | restart | returned
  deriving DecidableEq, Repr

inductive MarkStatus where
  | none | queued | inFlight | marked | unmarked | uncertain
  deriving DecidableEq, Repr

inductive JobKind where
  | first | reprint | overmark
  deriving DecidableEq, Repr

/-- The place of a chest in use, with the fields that are present in that place alone; a FREE record is not listed. -/
inductive Place where
  | tentative (lot : Nat)
  | accepted (lot serial bulk : Nat)
  | held (reason : HoldReason) (origin : Option Nat)
  deriving DecidableEq, Repr

/-- A non-free chest record. -/
structure Chest where
  place : Place
  lane : Nat
  scale : Nat
  gross : Nat
  tare : Nat
  tareSource : TareSource
  division : Nat
  /-- Raw net N, signed. -/
  net : Int
  /-- Recorded net N_rec. -/
  recNet : Option Nat
  failReason : Option FailReason
  reweighed : Bool
  sample : Nat
  mark : MarkStatus
  job : Option JobKind
  markHead : Option Nat
  reprints : Nat
  deriving DecidableEq, Repr

/-! ## Bulks (section 3.1) -/

inductive BulkState where
  | charging | mixed | spent
  deriving DecidableEq, Repr

/-- What a component's bin owes: nothing, the completion of a grant, or a settlement. A component never holds a grant in
flight and an uncertain mass at the same time (R49). -/
inductive Claim where
  | none
  | grant (mass : Nat)
  | uncertain (mass : Nat)
  deriving DecidableEq, Repr

structure Component where
  bin : Nat
  source : List Byte
  minShare : Nat
  maxShare : Nat
  charged : Nat
  count : Nat
  claim : Claim
  deriving DecidableEq, Repr

/-- A non-free bulk record. -/
structure Bulk where
  state : BulkState
  number : Nat
  grade : List Byte
  /-- Planned mass P. -/
  planned : Nat
  /-- Balance allowance in per mille. -/
  allowance : Nat
  components : List Component
  /-- Charged total K. -/
  charged : Nat
  /-- Drawn total W. -/
  drawn : Nat
  offRecipe : Bool
  overshoot : Bool
  lotRefs : Nat
  deriving DecidableEq, Repr

/-! ## Lanes (section 4.1) -/

inductive LaneHold where
  | host | forced | scaleAbsent | headAbsent | scaleSuspended | scaleTesting | balance | holdFull | oneDone | restart
  deriving DecidableEq, Repr

/-- States of a mapped lane with the hold reason where it is present; an UNMAPPED lane is not listed. -/
inductive LaneState where
  | running
  | holdPending (reason : LaneHold)
  | held (reason : LaneHold)
  deriving DecidableEq, Repr

/-- A lane's target. A lane has a stencil station exactly with a lot as its target. -/
inductive LaneTarget where
  | lot (slot stencil : Nat)
  | hold
  deriving DecidableEq, Repr

/-- A mapped lane record. The tare mode NOMINAL or INDIVIDUAL is the value the tare source takes. -/
structure Lane where
  state : LaneState
  target : LaneTarget
  scale : Nat
  tareMode : TareSource
  tareClass : Nat
  pendingTare : Option Nat
  watch : Bool
  oneShot : Bool
  tentative : Option Nat
  deriving DecidableEq, Repr

/-! ## Mark queues and heads (sections 6.1 and 6.2) -/

structure Job where
  chest : Nat
  kind : JobKind
  deriving DecidableEq, Repr

inductive FaultCode where
  | noChest | ink | jam | other
  deriving DecidableEq, Repr

/-- Pause reason, with the fault code where it is present. -/
inductive PauseReason where
  | host
  | fault (code : FaultCode)
  | lost
  | restart
  deriving DecidableEq, Repr

inductive HeadState where
  | idle | ready | sending | printing | pausePending
  | paused (reason : PauseReason)
  deriving DecidableEq, Repr

/-- The assembled mark fields of a message (R118). -/
structure MarkFields where
  kind : JobKind
  serial : Nat
  garden : List Byte
  grade : List Byte
  invoice : Nat
  printedNet : Nat
  gross : Nat
  season : Nat
  deriving DecidableEq, Repr

/-- The message in progress: its fields and the index of the next word to send. After word 10 the reply timer runs and
the index is a free value (assumption 12). -/
structure Message where
  fields : MarkFields
  next : Nat
  deriving DecidableEq, Repr

/-- A head record with its mark queue, the oldest job at the front. `interval` is the interval timer, `none` when it has
expired; `reply` is the reply timer while it runs. Times are ms. -/
structure Head where
  state : HeadState
  oneMark : Bool
  message : Option Message
  interval : Option Nat
  reply : Option Nat
  queue : List Job
  deriving DecidableEq, Repr

/-- A head as a cold start leaves it (R130). -/
def Head.cold : Head :=
  { state := .idle, oneMark := false, message := none, interval := none, reply := none, queue := [] }

/-! ## Verification records (section 7.1) -/

inductive Action where
  | warn | suspend
  deriving DecidableEq, Repr

inductive Grace where
  | running (ms : Nat)
  | expired
  deriving DecidableEq, Repr

/-- The verification states other than TESTING, each with the timer that is present in it. -/
inductive Standing where
  | unverified
  | verified (periodMs : Nat)
  | due (grace : Grace)
  | suspended
  deriving DecidableEq, Repr

/-- A verification state. TESTING holds the saved prior state with its kept timer, the test mass and whether the TEST
order has been sent. -/
inductive VerifyState where
  | at (standing : Standing)
  | testing (prior : Standing) (mass : Nat) (sent : Bool)
  deriving DecidableEq, Repr

structure LastTest where
  mass : Nat
  reading : Nat
  difference : Nat
  pass : Bool
  deriving DecidableEq, Repr

structure Verification where
  state : VerifyState
  /-- Period Pv in minutes. -/
  period : Nat
  /-- Grace Gv in minutes. -/
  grace : Nat
  action : Action
  tolerance : Nat
  /-- The verified abilities: division and capacity at the last passed test. -/
  abilities : Option (Nat × Nat)
  lastTest : Option LastTest
  deriving DecidableEq, Repr

/-- A verification record as a cold start leaves it (R141). -/
def Verification.cold : Verification :=
  { state := .at .unverified, period := 480, grace := 60, action := .suspend, tolerance := 0
    abilities := none, lastTest := none }

/-! ## The station table (section 8.2) and the wait kinds (R89) -/

inductive StationKind where
  | none | scale | stencil | bin
  deriving DecidableEq, Repr

/-- Join state, with the window count or the inhibit count where it is present. -/
inductive Join where
  | absent
  | announcing (window : Nat)
  | active
  | refused
  | lost (inhibit : Nat)
  deriving DecidableEq, Repr

/-- Announced pages: the kind of page A, the values of pages B and C as received. -/
structure Pages where
  kind : StationKind
  pageB : Option Nat
  pageC : Option Nat
  deriving DecidableEq, Repr

/-- Resolved abilities by kind (section 8.3). -/
inductive Abilities where
  | scale (division capacity : Nat)
  | stencil (printMs intervalMs : Nat)
  | bin (maxCharge : Nat)
  deriving DecidableEq, Repr

/-- A reading with its three flags. -/
structure Reading where
  grams : Nat
  stable : Bool
  overload : Bool
  underload : Bool
  deriving DecidableEq, Repr

/-- A call in a call slot: its kind and payload. -/
inductive Call where
  | gross (r : Reading)
  | tare (r : Reading)
  | test (r : Reading)
  | charge (asked : Nat)
  | done (delivered : Nat)
  | replyDone
  | replyFault (code : FaultCode)
  deriving DecidableEq, Repr

/-- The answer codes, in the order of their codes 0 to 27 (section 11.2). -/
inductive AnswerCode where
  | pending | busy | wrongCall
  | testing | notVerified | noLane | laneHeld | unstable | overCapacity | underload | noTare | accepted | reweigh
  | held | notWanted | tareOutOfWindow | tareSet | tareReplaced
  | notTesting | testPass | testFail
  | noBulk | uncertain | inFlight | full | chargeCounted
  | markTaken | noMark
  deriving DecidableEq, Repr

/-- An entry of an answer list (R151). -/
inductive Answer where
  | answer (code : AnswerCode) (value : Nat)
  | grant (mass : Nat)
  | refuse
  deriving DecidableEq, Repr

/-- A scale's order waiting to be sent (R154). A stencil station's order is its head's message in progress. -/
inductive Order where
  | test (mass : Nat)
  | testEnd
  deriving DecidableEq, Repr

structure Station where
  kind : StationKind
  /-- Configured mark interval in ms. -/
  interval : Nat
  join : Join
  silence : Nat
  pages : Option Pages
  abilities : Option Abilities
  slot : Option Call
  answers : List Answer
  order : Option Order
  lostSinceRead : Bool
  parityErrors : Nat
  addressErrors : Nat
  busyAnswers : Nat
  losses : Nat
  /-- The MODEL's own (assumption 4): the inbound half of this cycle's slot is still to come or to be judged. -/
  slotOpen : Bool
  deriving DecidableEq, Repr

/-- A station entry as a cold start leaves it (R158). -/
def Station.cold : Station :=
  { kind := .none, interval := 0, join := .absent, silence := 0, pages := none, abilities := none, slot := none
    answers := [], order := none, lostSinceRead := false, parityErrors := 0, addressErrors := 0, busyAnswers := 0
    losses := 0, slotOpen := false }

/-- Wait kind of a scale station's call (R89). -/
inductive WaitKind where
  | none | lot | queue | pool
  deriving DecidableEq, Repr

/-! ## The Command Port (chapter 9) -/

/-- The response buffer (section 9.1). PREPARING holds the latched frame, READY and READ the response frame. -/
inductive Buffer where
  | empty
  | preparing (frame : List Byte)
  | ready (response : List Byte)
  | read (response : List Byte)
  deriving DecidableEq, Repr

/-- The 19 notice kinds, in the order of the table of section 9.4. -/
inductive NoticeKind where
  | lotFilled | lotComplete | laneHeld | laneWatch | chestHeld | balance | holdFull | headPaused | markUncertain
  | queueEmpty | queueLow | stationLost | stationRefused | verifyDue | scaleSuspended | chargeUncertain | overshoot
  | purgeDone | restarted
  deriving DecidableEq, Repr

structure Notice where
  pending : Bool
  enable : Bool
  repeated : Bool
  source : Option Nat
  deriving DecidableEq, Repr

/-- A notice kind never raised, as a cold start leaves it (R171). -/
def Notice.cold : Notice := { pending := false, enable := false, repeated := false, source := none }

/-! ## Retention (chapter 10) -/

inductive PartState where
  | running | purging | retain
  deriving DecidableEq, Repr

inductive RestartKind where
  | cold | warm
  deriving DecidableEq, Repr

inductive RestartCause where
  | power | reset
  deriving DecidableEq, Repr

/-- A valid retention marker holds the part state at entry, RUNNING or PURGING (R174). -/
inductive EnteredFrom where
  | running | purging
  deriving DecidableEq, Repr

/-! ## The state of the part -/

/-- Everything the part holds. `pending` is the sender's queue of commands, first in, first out. -/
structure State where
  pending : List Instr
  -- Retention Controller
  part : PartState
  /-- The purge timer in ms, from the start of a purge to its end (R178). -/
  purgeTimer : Option Nat
  /-- The number of pending kinds as a purge found it, which READ_PART gives while the purge runs (R179; assumption 28). It
  is 0 while no purge runs. -/
  noticesAtPurge : Nat
  /-- The retention marker; `none` is an invalid one (R176). -/
  marker : Option EnteredFrom
  restartKind : RestartKind
  restartCause : RestartCause
  purgeFinished : Bool
  /-- PWRGOOD is high. -/
  pwrgood : Bool
  /-- RESET is asserted (it is active low: asserted is `true` here). -/
  resetAsserted : Bool
  -- Command Port
  buffer : Buffer
  /-- The bytes shifted out on SDO in the last read window (the MODEL's own, assumption 5). -/
  sdo : List Byte
  notices : Table Notice
  -- Station Link Controller
  /-- Number of the last cycle head sent; `none` before the first cycle after a start (R144). -/
  cycle : Option Nat
  /-- The words sent in the last link cycle: the cycle head, then one for each address (the MODEL's own, assumption 5). -/
  linkOut : List LinkWord
  stations : Table Station
  -- Scale Verification Unit
  verifications : Table Verification
  -- Mark Unit
  heads : Table Head
  -- Weighing Unit
  waits : Table WaitKind
  -- Lane Map
  lanes : Table Lane
  -- Lot Table
  lots : Table Lot
  classes : Table TareClass
  -- Bulk Table
  bulks : Table Bulk
  -- Chest Store
  chests : Table Chest
  /-- The hold pool, the longest held first (section 2.4). -/
  pool : List Nat
  deriving DecidableEq, Repr

/-- Why the part stops. -/
inductive Fault where
  /-- Raised by CALL_GROSS alone, when an outcome that creates a chest finds none of the 2,048 records FREE. R29 says
  that "A FREE record always exists at that moment", so no run of the part reaches it. SAFE: the model stops where the
  manual gives nothing. -/
  | noFreeRecord
  deriving DecidableEq, Repr

/-- Why a command has no meaning here. -/
inductive Refusal where
  /-- Raised by `exec` for a command that has no meaning yet; no arm of it does. SAFE: the model stops. -/
  | notModelled (mnemonic : String)
  deriving DecidableEq, Repr

/-- The part right after a cold start of cause POWER (assumption 1): every table as R25, R46, R68, R86, R111, R130, R141,
R158 and R171 leave it, the link not yet at its first cycle, RESTARTED (kind 18) pending with
source COLD (code 0). -/
def State.reset : State where
  pending := []
  part := .running
  purgeTimer := none
  noticesAtPurge := 0
  marker := none
  restartKind := .cold
  restartCause := .power
  purgeFinished := false
  pwrgood := true
  resetAsserted := false
  buffer := .empty
  sdo := []
  notices := [(18, { pending := true, enable := false, repeated := false, source := some 0 })]
  cycle := none
  linkOut := []
  stations := []
  verifications := []
  heads := []
  waits := []
  lanes := []
  lots := []
  classes := []
  bulks := []
  chests := []
  pool := []

end Sys2Proof.Machine
end

