-- ==== Sys2Proof/WellFormed.lean ====
section
/-! DEFINITION. Which commands the sender can send at all: a station address is 1 to 14 (scope file, "Indices"), and
a command window is one in which the host sends at least one byte, the first not the read code (R161). A command that
is not well formed is no event of the part: its meaning changes nothing (assumption 2). -/

namespace Sys2Proof

/-- A station address lies in 1 to 14. -/
abbrev isAddress (a : Nat) : Bool := 1 ≤ a && a ≤ 14

/-- The window is a command window (R161). -/
def isCommandWindow : List Byte → Bool
  | [] => false
  | b :: _ => b != Config.readCode

/-- A command the sender can send. -/
def Instr.wellFormed : Instr → Bool
  | .commandWindowEnd bytes => isCommandWindow bytes
  | .inboundWord a _ => isAddress a
  | .announceWindowExpiry a => isAddress a
  | .stationLost a => isAddress a
  | .rejoinInhibitExpiry a => isAddress a
  | .refusalExpiry a => isAddress a
  | .callGross a => isAddress a
  | .callTare a => isAddress a
  | .callTest a => isAddress a
  | .callCharge a => isAddress a
  | .callDone a => isAddress a
  | .replyDone a => isAddress a
  | .replyFault a => isAddress a
  | .markTimeout a => isAddress a
  | .intervalExpiry a => isAddress a
  | .periodExpiry a => isAddress a
  | .graceExpiry a => isAddress a
  | .setStation | .readStation | .setTareClass | .readTareClass | .openBulk | .mixBulk | .settleCharge
  | .spendBulk | .freeBulk | .readBulk | .openLot | .closeLot | .declareLot | .retireLot | .drawSample
  | .readLot | .readDeclaration | .mapLane | .unmapLane | .holdLane | .holdLaneForce | .releaseLane
  | .readLane | .readChest | .assignHeld | .returnChest | .voidChest | .pauseHead | .resumeHead
  | .flushHead | .reprint | .readHead | .setVerify | .verifyScale | .cancelVerify | .readNotices
  | .clearNotices | .setNoticeEnables | .readPart | .purge | .unknownCommand | .readWindow _ | .linkCycle
  | .purgeComplete | .pwrgoodFall | .resetAssert | .pwrgoodRise | .resetRelease
  | .vbakBelowHoldingLevel | .supplyFailsWithoutPwrgoodFall => true

end Sys2Proof
end

