-- ==== Sys2Proof/Machine/Codes.lean ====
section
/-! DEFINITION. The codes of named values (R183: "A named value is coded by its place, counting from 0, in the list that
the table below gives for its field") and the statuses of the Command Port (R164). -/

namespace Sys2Proof.Machine

/-- The thirteen statuses of a response (R164), in code order (R183). -/
inductive Status where
  | ok | started | busy | noSuch | badState | badValue | noRoom | duplicate | inFlight | locked | offRecipe
  | refusedTest | badFrame
  deriving DecidableEq, Repr

/-- What the owner of a command answers: a status and the response's data. -/
structure Reply where
  status : Status
  data : List Byte
  deriving DecidableEq, Repr

def Status.code : Status → Nat
  | .ok => 0 | .started => 1 | .busy => 2 | .noSuch => 3 | .badState => 4 | .badValue => 5 | .noRoom => 6
  | .duplicate => 7 | .inFlight => 8 | .locked => 9 | .offRecipe => 10 | .refusedTest => 11 | .badFrame => 12

def LotState.code : LotState → Nat
  | .opened => 1 | .packing => 2 | .finishing => 3 | .complete => 4 | .declared => 5

def FinishCause.code : Option FinishCause → Nat
  | none => 0 | some .filled => 1 | some .closed => 2

/-- FREE is 0. -/
def Place.code : Place → Nat
  | .tentative _ => 1 | .accepted _ _ _ => 2 | .held _ _ => 3

def FailReason.code : FailReason → Nat
  | .resolution => 0 | .short => 1 | .over => 2

def HoldReason.code : HoldReason → Nat
  | .secondFail => 0 | .balance => 1 | .unassigned => 2 | .forced => 3 | .restart => 4 | .returned => 5

def TareSource.code : TareSource → Nat
  | .nominal => 0 | .individual => 1

def MarkStatus.code : MarkStatus → Nat
  | .none => 0 | .queued => 1 | .inFlight => 2 | .marked => 3 | .unmarked => 4 | .uncertain => 5

def JobKind.code : JobKind → Nat
  | .first => 0 | .reprint => 1 | .overmark => 2

/-- FREE is 0. -/
def BulkState.code : BulkState → Nat
  | .charging => 1 | .mixed => 2 | .spent => 3

/-- UNMAPPED is 0. -/
def LaneState.code : LaneState → Nat
  | .running => 1 | .holdPending _ => 2 | .held _ => 3

def LaneHold.code : LaneHold → Nat
  | .host => 0 | .forced => 1 | .scaleAbsent => 2 | .headAbsent => 3 | .scaleSuspended => 4 | .scaleTesting => 5
  | .balance => 6 | .holdFull => 7 | .oneDone => 8 | .restart => 9

/-- HOLD is coded 255. -/
def LaneTarget.code : LaneTarget → Nat
  | .lot slot _ => slot | .hold => 255

def HeadState.code : HeadState → Nat
  | .idle => 0 | .ready => 1 | .sending => 2 | .printing => 3 | .pausePending => 4 | .paused _ => 5

def FaultCode.code : FaultCode → Nat
  | .noChest => 0 | .ink => 1 | .jam => 2 | .other => 3

def PauseReason.code : PauseReason → Nat
  | .host => 0 | .fault _ => 1 | .lost => 2 | .restart => 3

def Standing.code : Standing → Nat
  | .unverified => 0 | .verified _ => 1 | .due _ => 2 | .suspended => 3

def VerifyState.code : VerifyState → Nat
  | .at standing => standing.code | .testing _ _ _ => 4

def Action.code : Action → Nat
  | .warn => 0 | .suspend => 1

def StationKind.code : StationKind → Nat
  | .none => 0 | .scale => 1 | .stencil => 2 | .bin => 3

def Join.code : Join → Nat
  | .absent => 0 | .announcing _ => 1 | .active => 2 | .refused => 3 | .lost _ => 4

/-- RETAIN is never reported (R166). -/
def PartState.code : PartState → Nat
  | .running => 0 | .purging => 1 | .retain => 2

def RestartKind.code : RestartKind → Nat
  | .cold => 0 | .warm => 1

def RestartCause.code : RestartCause → Nat
  | .power => 0 | .reset => 1

/-- Bit of a kind in a notice set and its place in the table of section 9.4. -/
def NoticeKind.code : NoticeKind → Nat
  | .lotFilled => 0 | .lotComplete => 1 | .laneHeld => 2 | .laneWatch => 3 | .chestHeld => 4 | .balance => 5
  | .holdFull => 6 | .headPaused => 7 | .markUncertain => 8 | .queueEmpty => 9 | .queueLow => 10 | .stationLost => 11
  | .stationRefused => 12 | .verifyDue => 13 | .scaleSuspended => 14 | .chargeUncertain => 15 | .overshoot => 16
  | .purgeDone => 17 | .restarted => 18

/-- Inbound kind of a call (section 11.2). -/
def Call.kindCode : Call → Nat
  | .gross _ => 2 | .tare _ => 3 | .test _ => 4 | .charge _ => 5 | .done _ => 6 | .replyDone => 7 | .replyFault _ => 7

/-- Answer codes (section 11.2). -/
def AnswerCode.code : AnswerCode → Nat
  | .pending => 0 | .busy => 1 | .wrongCall => 2
  | .testing => 3 | .notVerified => 4 | .noLane => 5 | .laneHeld => 6 | .unstable => 7 | .overCapacity => 8
  | .underload => 9 | .noTare => 10 | .accepted => 11 | .reweigh => 12 | .held => 13 | .notWanted => 14
  | .tareOutOfWindow => 15 | .tareSet => 16 | .tareReplaced => 17
  | .notTesting => 18 | .testPass => 19 | .testFail => 20
  | .noBulk => 21 | .uncertain => 22 | .inFlight => 23 | .full => 24 | .chargeCounted => 25
  | .markTaken => 26 | .noMark => 27

/-- Order in READ_STATION: 0 none, 1 TEST, 2 TEST_END, 3 mark message. -/
def Order.code : Order → Nat
  | .test _ => 1 | .testEnd => 2

end Sys2Proof.Machine
end

