-- ==== Sys2Proof/Machine/Operands.lean ====
section
/-! DEFINITION. What the part reads: the parameters of each command frame (R183) and the inbound words of the link
(section 11.2, R185). Numbers on the Command Port go most significant byte first. A reader answers `none` when the
bytes are not of the length that the command takes from its own length and presence bytes, which is BAD_FRAME (R162
check 1, R183); a figure out of its range is read as it stands and left to the owner's checks. -/

namespace Sys2Proof.Machine

/-! ## Figures -/

/-- The number that bytes spell, most significant first. -/
def beNat (bs : List Byte) : Nat := bs.foldl (fun acc b => acc * 256 + b.toNat) 0

/-- An unsigned number of `n` bytes, and the bytes after it. -/
def readU (n : Nat) (bs : List Byte) : Option (Nat × List Byte) :=
  if n ≤ bs.length then some (beNat (bs.take n), bs.drop n) else none

/-- A mass of four bytes, signed (two's complement). -/
def readS4 (bs : List Byte) : Option (Int × List Byte) :=
  (readU 4 bs).map (fun r => ((BitVec.ofNat 32 r.1).toInt, r.2))

/-- A text parameter: a length byte and that many bytes. -/
def readText (bs : List Byte) : Option (List Byte × List Byte) :=
  match bs with
  | [] => none
  | n :: rest => if n.toNat ≤ rest.length then some (rest.take n.toNat, rest.drop n.toNat) else none

/-- An optional parameter of `n` bytes: `none` for a presence byte other than 0 and 1, which is followed by no field and
fails the owner's range check. -/
def readOpt (n : Nat) (bs : List Byte) : Option (Option (Option Nat) × List Byte) :=
  match bs with
  | [] => none
  | p :: rest =>
    if p.toNat = 1 then (readU n rest).map (fun r => (some (some r.1), r.2))
    else if p.toNat = 0 then some (some none, rest)
    else some (none, rest)

/-- No byte is left over. -/
def readEnd {α : Type} (v : α) (bs : List Byte) : Option α := if bs = [] then some v else none

/-- One byte alone. -/
def readOne (bs : List Byte) : Option Nat := do
  let (a, bs) ← readU 1 bs
  readEnd a bs

/-- Two one-byte figures. -/
def readPair (bs : List Byte) : Option (Nat × Nat) := do
  let (a, bs) ← readU 1 bs
  let (b, bs) ← readU 1 bs
  readEnd (a, b) bs

/-- A chest id alone. -/
def readChestId (bs : List Byte) : Option Nat := do
  let (a, bs) ← readU 2 bs
  readEnd a bs

/-- No parameters. -/
def readNone (bs : List Byte) : Option Unit := readEnd () bs

/-- A notice set: three bytes. -/
def readNoticeSet (bs : List Byte) : Option Nat := do
  let (a, bs) ← readU 3 bs
  readEnd a bs

/-! ## The character set (R184) -/

/-- The link code of a character of the set of 40, and `none` for any other byte. -/
def charCode (b : Byte) : Option Nat :=
  let n := b.toNat
  if 65 ≤ n && n ≤ 90 then some (n - 65)
  else if 48 ≤ n && n ≤ 57 then some (n - 48 + 26)
  else if n = 0x20 then some 36
  else if n = 0x2D then some 37
  else if n = 0x2F then some 38
  else if n = 0x2E then some 39
  else none

/-- A text of 1 to `top` characters, each of the character set. -/
def textOk (top : Nat) (t : List Byte) : Bool :=
  1 ≤ t.length && t.length ≤ top && t.all (fun b => (charCode b).isSome)

/-! ## Parameters, in the order of each command's rule -/

/-- A record named by slot or by number; `bad` is a form byte out of range, for which no length is given. -/
inductive Named where
  | slot (n : Nat)
  | number (n : Nat)
  | bad
  deriving DecidableEq, Repr

/-- READ_LOT (number of 4 bytes) and READ_BULK (number of 2 bytes). -/
def readNamed (width : Nat) (bs : List Byte) : Option Named := do
  let (form, bs) ← readU 1 bs
  if form = 0 then
    let (n, bs) ← readU 1 bs
    readEnd (.slot n) bs
  else if form = 1 then
    let (n, bs) ← readU width bs
    readEnd (.number n) bs
  else some .bad

structure SetStationParams where
  station : Nat
  kind : Nat
  interval : Nat
  deriving DecidableEq, Repr

def readSetStation (bs : List Byte) : Option SetStationParams := do
  let (station, bs) ← readU 1 bs
  let (kind, bs) ← readU 1 bs
  let (interval, bs) ← readU 2 bs
  readEnd ⟨station, kind, interval⟩ bs

/-- The window is `none` when its presence byte is out of range. -/
structure TareClassParams where
  number : Nat
  nominal : Nat
  spread : Nat
  window : Option (Option (Nat × Nat))
  deriving DecidableEq, Repr

def readSetTareClass (bs : List Byte) : Option TareClassParams := do
  let (number, bs) ← readU 1 bs
  let (nominal, bs) ← readU 2 bs
  let (spread, bs) ← readU 2 bs
  let (presence, bs) ← readU 1 bs
  if presence = 1 then
    let (lo, bs) ← readU 2 bs
    let (hi, bs) ← readU 2 bs
    readEnd ⟨number, nominal, spread, some (some (lo, hi))⟩ bs
  else if presence = 0 then readEnd ⟨number, nominal, spread, some none⟩ bs
  else readEnd ⟨number, nominal, spread, none⟩ bs

structure ComponentParams where
  bin : Nat
  source : List Byte
  minShare : Nat
  maxShare : Nat
  deriving DecidableEq, Repr

def readComponents : Nat → List Byte → Option (List ComponentParams × List Byte)
  | 0, bs => some ([], bs)
  | n + 1, bs => do
    let (bin, bs) ← readU 1 bs
    let (source, bs) ← readText bs
    let (lo, bs) ← readU 2 bs
    let (hi, bs) ← readU 2 bs
    let (more, bs) ← readComponents n bs
    some (⟨bin, source, lo, hi⟩ :: more, bs)

structure OpenBulkParams where
  slot : Nat
  number : Nat
  grade : List Byte
  planned : Int
  allowance : Nat
  components : List ComponentParams
  deriving DecidableEq, Repr

def readOpenBulk (bs : List Byte) : Option OpenBulkParams := do
  let (slot, bs) ← readU 1 bs
  let (number, bs) ← readU 2 bs
  let (grade, bs) ← readText bs
  let (planned, bs) ← readS4 bs
  let (allowance, bs) ← readU 2 bs
  let (count, bs) ← readU 1 bs
  let (components, bs) ← readComponents count bs
  readEnd ⟨slot, number, grade, planned, allowance, components⟩ bs

structure SettleParams where
  slot : Nat
  component : Nat
  mass : Int
  deriving DecidableEq, Repr

/-- SETTLE_CHARGE (R59). The component number goes in one byte, the model's reading (assumption 35). -/
def readSettle (bs : List Byte) : Option SettleParams := do
  let (slot, bs) ← readU 1 bs
  let (component, bs) ← readU 1 bs
  let (mass, bs) ← readS4 bs
  readEnd ⟨slot, component, mass⟩ bs

structure OpenLotParams where
  slot : Nat
  invoice : Nat
  garden : List Byte
  grade : List Byte
  season : Nat
  bulk : Nat
  tareClass : Nat
  declNet : Int
  step : Nat
  margin : Nat
  planned : Nat
  sampleLimit : Nat
  overmark : Nat
  deriving DecidableEq, Repr

def readOpenLot (bs : List Byte) : Option OpenLotParams := do
  let (slot, bs) ← readU 1 bs
  let (invoice, bs) ← readU 4 bs
  let (garden, bs) ← readText bs
  let (grade, bs) ← readText bs
  let (season, bs) ← readU 1 bs
  let (bulk, bs) ← readU 1 bs
  let (tareClass, bs) ← readU 1 bs
  let (declNet, bs) ← readS4 bs
  let (step, bs) ← readU 2 bs
  let (margin, bs) ← readU 2 bs
  let (planned, bs) ← readU 1 bs
  let (sampleLimit, bs) ← readU 2 bs
  let (overmark, bs) ← readU 1 bs
  readEnd ⟨slot, invoice, garden, grade, season, bulk, tareClass, declNet, step, margin, planned, sampleLimit, overmark⟩ bs

structure SampleParams where
  slot : Nat
  serial : Nat
  mass : Nat
  head : Nat
  deriving DecidableEq, Repr

def readSample (bs : List Byte) : Option SampleParams := do
  let (slot, bs) ← readU 1 bs
  let (serial, bs) ← readU 1 bs
  let (mass, bs) ← readU 2 bs
  let (head, bs) ← readU 1 bs
  readEnd ⟨slot, serial, mass, head⟩ bs

/-- The stencil station and the tare class are `none` when their presence byte is out of range. -/
structure MapLaneParams where
  lane : Nat
  target : Nat
  scale : Nat
  stencil : Option (Option Nat)
  tareMode : Nat
  tareClass : Option (Option Nat)
  watch : Nat
  deriving DecidableEq, Repr

def readMapLane (bs : List Byte) : Option MapLaneParams := do
  let (lane, bs) ← readU 1 bs
  let (target, bs) ← readU 1 bs
  let (scale, bs) ← readU 1 bs
  let (stencil, bs) ← readOpt 1 bs
  let (tareMode, bs) ← readU 1 bs
  let (tareClass, bs) ← readOpt 1 bs
  let (watch, bs) ← readU 1 bs
  readEnd ⟨lane, target, scale, stencil, tareMode, tareClass, watch⟩ bs

structure ReleaseParams where
  lane : Nat
  one : Nat
  watch : Nat
  deriving DecidableEq, Repr

def readRelease (bs : List Byte) : Option ReleaseParams := do
  let (lane, bs) ← readU 1 bs
  let (one, bs) ← readU 1 bs
  let (watch, bs) ← readU 1 bs
  readEnd ⟨lane, one, watch⟩ bs

/-- The three forms of READ_CHEST (R38); `bad` is a form byte out of range. -/
inductive ChestName where
  | id (n : Nat)
  | serial (slot serial : Nat)
  | position (n : Nat)
  | bad
  deriving DecidableEq, Repr

def readChestName (bs : List Byte) : Option ChestName := do
  let (form, bs) ← readU 1 bs
  if form = 0 then
    let (n, bs) ← readU 2 bs
    readEnd (.id n) bs
  else if form = 1 then
    let (slot, bs) ← readU 1 bs
    let (serial, bs) ← readU 1 bs
    readEnd (.serial slot serial) bs
  else if form = 2 then
    let (n, bs) ← readU 1 bs
    readEnd (.position n) bs
  else some .bad

structure AssignParams where
  chest : Nat
  slot : Nat
  head : Nat
  deriving DecidableEq, Repr

def readAssign (bs : List Byte) : Option AssignParams := do
  let (chest, bs) ← readU 2 bs
  let (slot, bs) ← readU 1 bs
  let (head, bs) ← readU 1 bs
  readEnd ⟨chest, slot, head⟩ bs

structure ReprintParams where
  chest : Nat
  head : Nat
  deriving DecidableEq, Repr

def readReprint (bs : List Byte) : Option ReprintParams := do
  let (chest, bs) ← readU 2 bs
  let (head, bs) ← readU 1 bs
  readEnd ⟨chest, head⟩ bs

structure SetVerifyParams where
  station : Nat
  period : Nat
  grace : Nat
  action : Nat
  tolerance : Nat
  deriving DecidableEq, Repr

def readSetVerify (bs : List Byte) : Option SetVerifyParams := do
  let (station, bs) ← readU 1 bs
  let (period, bs) ← readU 2 bs
  let (grace, bs) ← readU 1 bs
  let (action, bs) ← readU 1 bs
  let (tolerance, bs) ← readU 2 bs
  readEnd ⟨station, period, grace, action, tolerance⟩ bs

structure VerifyParams where
  station : Nat
  mass : Int
  deriving DecidableEq, Repr

def readVerify (bs : List Byte) : Option VerifyParams := do
  let (station, bs) ← readU 1 bs
  let (mass, bs) ← readS4 bs
  readEnd ⟨station, mass⟩ bs

/-! ## Command codes (section 11.3) -/

abbrev codeSetStation : Byte := 0x10
abbrev codeReadStation : Byte := 0x11
abbrev codeSetTareClass : Byte := 0x18
abbrev codeReadTareClass : Byte := 0x19
abbrev codeOpenBulk : Byte := 0x20
abbrev codeMixBulk : Byte := 0x21
abbrev codeSettleCharge : Byte := 0x22
abbrev codeSpendBulk : Byte := 0x23
abbrev codeFreeBulk : Byte := 0x24
abbrev codeReadBulk : Byte := 0x25
abbrev codeOpenLot : Byte := 0x30
abbrev codeCloseLot : Byte := 0x31
abbrev codeDeclareLot : Byte := 0x32
abbrev codeRetireLot : Byte := 0x33
abbrev codeDrawSample : Byte := 0x34
abbrev codeReadLot : Byte := 0x35
abbrev codeReadDeclaration : Byte := 0x36
abbrev codeMapLane : Byte := 0x40
abbrev codeUnmapLane : Byte := 0x41
abbrev codeHoldLane : Byte := 0x42
abbrev codeReleaseLane : Byte := 0x43
abbrev codeReadLane : Byte := 0x44
abbrev codeReadChest : Byte := 0x50
abbrev codeAssignHeld : Byte := 0x51
abbrev codeReturnChest : Byte := 0x52
abbrev codeVoidChest : Byte := 0x53
abbrev codePauseHead : Byte := 0x60
abbrev codeResumeHead : Byte := 0x61
abbrev codeFlushHead : Byte := 0x62
abbrev codeReprint : Byte := 0x63
abbrev codeReadHead : Byte := 0x64
abbrev codeSetVerify : Byte := 0x70
abbrev codeVerifyScale : Byte := 0x71
abbrev codeCancelVerify : Byte := 0x72
abbrev codeReadNotices : Byte := 0x78
abbrev codeClearNotices : Byte := 0x79
abbrev codeSetNoticeEnables : Byte := 0x7A
abbrev codeReadPart : Byte := 0x7E
abbrev codePurge : Byte := 0x7F

/-- Every code that names a command. -/
def commandCodes : List Byte :=
  [codeSetStation, codeReadStation, codeSetTareClass, codeReadTareClass, codeOpenBulk, codeMixBulk, codeSettleCharge,
   codeSpendBulk, codeFreeBulk, codeReadBulk, codeOpenLot, codeCloseLot, codeDeclareLot, codeRetireLot, codeDrawSample,
   codeReadLot, codeReadDeclaration, codeMapLane, codeUnmapLane, codeHoldLane, codeReleaseLane, codeReadLane,
   codeReadChest, codeAssignHeld, codeReturnChest, codeVoidChest, codePauseHead, codeResumeHead, codeFlushHead,
   codeReprint, codeReadHead, codeSetVerify, codeVerifyScale, codeCancelVerify, codeReadNotices, codeClearNotices,
   codeSetNoticeEnables, codeReadPart, codePurge]

/-! ## Inbound link words (section 11.2) -/

/-- `len` bits of `n` from bit `lo` up. -/
def bitsAt (n lo len : Nat) : Nat := n / 2 ^ lo % 2 ^ len

/-- The count of ones in all 32 bits is odd. -/
def oddParity (w : LinkWord) : Bool := (List.range 32).foldl (fun odd i => odd ^^ w.getLsbD i) false

/-- Station address of a word, bits 31 to 28. -/
def wordAddress (w : LinkWord) : Nat := bitsAt w.toNat 28 4

/-- Kind of a word, bits 27 to 24. -/
def wordKind (w : LinkWord) : Nat := bitsAt w.toNat 24 4

/-- Payload of a word, bits 23 to 1. -/
def wordPayload (w : LinkWord) : Nat := bitsAt w.toNat 1 23

/-- Pages of an announce. -/
inductive Page where
  | a (kind : StationKind)
  | b (value : Nat)
  | c (value : Nat)
  deriving DecidableEq, Repr

/-- An inbound word by its kind (R144, R185); `unknown` is a kind of 8 to 15 or an announce of page code 3. -/
inductive Inbound where
  | present
  | announce (page : Page)
  | call (c : Call)
  | unknown
  deriving DecidableEq, Repr

/-- A reading with its flags: payload bits 22 stable, 21 overload, 20 underload, 17 to 0 grams. -/
def payloadReading (p : Nat) : Reading :=
  { grams := bitsAt p 0 18, stable := bitsAt p 22 1 = 1, overload := bitsAt p 21 1 = 1, underload := bitsAt p 20 1 = 1 }

/-- Kind code of page A; 0 names no kind (R185). -/
def pageKind (n : Nat) : StationKind :=
  if n = 1 then .scale else if n = 2 then .stencil else if n = 3 then .bin else .none

/-- Fault code of a REPLY. -/
def payloadFault (n : Nat) : FaultCode :=
  if n = 0 then .noChest else if n = 1 then .ink else if n = 2 then .jam else .other

/-- What an inbound word says. Bits that its layout does not use are ignored (R185). -/
def inboundOf (w : LinkWord) : Inbound :=
  let p := wordPayload w
  let k := wordKind w
  if k = 0 then .present
  else if k = 1 then
    let page := bitsAt p 21 2
    if page = 0 then .announce (.a (pageKind (bitsAt p 0 2)))
    else if page = 1 then .announce (.b (bitsAt p 0 19))
    else if page = 2 then .announce (.c (bitsAt p 0 19))
    else .unknown
  else if k = 2 then .call (.gross (payloadReading p))
  else if k = 3 then .call (.tare (payloadReading p))
  else if k = 4 then .call (.test (payloadReading p))
  else if k = 5 then .call (.charge (bitsAt p 0 19))
  else if k = 6 then .call (.done (bitsAt p 0 19))
  else if k = 7 then
    if bitsAt p 22 1 = 0 then .call .replyDone else .call (.replyFault (payloadFault (bitsAt p 0 2)))
  else .unknown

end Sys2Proof.Machine
end

