-- ==== Sys2Proof/Machine/Ops.lean ====
section
/-! DEFINITION. The one way to read and to write each kind of record. A record is read by number; a write names the
record and leaves every other as it stands. -/

namespace Sys2Proof.Machine

/-! ## Reading records -/

/-- The record of a non-free lot slot. -/
def State.lot? (s : State) (k : Nat) : Option Lot := s.lots.get? k
/-- The entry of a set tare class. -/
def State.class? (s : State) (k : Nat) : Option TareClass := s.classes.get? k
/-- The record of a non-free bulk slot. -/
def State.bulk? (s : State) (k : Nat) : Option Bulk := s.bulks.get? k
/-- The record of a mapped lane. -/
def State.lane? (s : State) (n : Nat) : Option Lane := s.lanes.get? n
/-- The record of a chest in use. -/
def State.chest? (s : State) (id : Nat) : Option Chest := s.chests.get? id
/-- The entry of a station address. -/
def State.station (s : State) (a : Nat) : Station := s.stations.getD Station.cold a
/-- The verification record of a station address. -/
def State.verification (s : State) (a : Nat) : Verification := s.verifications.getD Verification.cold a
/-- The head record and mark queue of a station address. -/
def State.head (s : State) (a : Nat) : Head := s.heads.getD Head.cold a
/-- The wait kind of a station's call (R89). -/
def State.wait (s : State) (a : Nat) : WaitKind := s.waits.getD WaitKind.none a
/-- The items of a notice kind (R167). -/
def State.notice (s : State) (k : NoticeKind) : Notice := s.notices.getD Notice.cold k.code

/-! ## Records that stand for one not in use

They are read only where a check before has found the record in use. -/

def Lot.blank : Lot :=
  { state := .opened, invoice := 0, garden := [], grade := [], season := 0, bulk := 0, tareClass := 0, declNet := 0
    step := 0, margin := 0, planned := 0, sampleLimit := 0, overmark := false, accepted := 0, tentative := 0
    outstanding := 0, cause := none, grossTotal := 0, tareTotal := 0, netTotal := 0, minTare := none, maxTare := none
    sampleTotal := 0, sampledCount := 0, reweighedCount := 0, mappedLanes := 0, declaration := none }

def TareClass.blank : TareClass := { nominal := 0, window := none, spread := 0 }

def Bulk.blank : Bulk :=
  { state := .spent, number := 0, grade := [], planned := 0, allowance := 0, components := [], charged := 0, drawn := 0
    offRecipe := false, overshoot := false, lotRefs := 0 }

def Chest.blank : Chest :=
  { place := .held .unassigned none, lane := 0, scale := 0, gross := 0, tare := 0, tareSource := .nominal
    division := 0, net := 0, recNet := none, failReason := none, reweighed := false, sample := 0, mark := .none
    job := none, markHead := none, reprints := 0 }

def Lane.blank : Lane :=
  { state := .running, target := .hold, scale := 0, tareMode := .nominal, tareClass := 0, pendingTare := none
    watch := false, oneShot := false, tentative := none }

def State.lotD (s : State) (k : Nat) : Lot := (s.lot? k).getD Lot.blank
def State.classD (s : State) (k : Nat) : TareClass := (s.class? k).getD TareClass.blank
def State.bulkD (s : State) (k : Nat) : Bulk := (s.bulk? k).getD Bulk.blank
def State.chestD (s : State) (id : Nat) : Chest := (s.chest? id).getD Chest.blank
def State.laneD (s : State) (n : Nat) : Lane := (s.lane? n).getD Lane.blank

/-- The lot slot is non-free and its record satisfies `p`. -/
def State.lotIs (s : State) (k : Nat) (p : Lot → Bool) : Bool :=
  match s.lot? k with
  | some l => p l
  | none => false

/-- The bulk slot is non-free and its record satisfies `p`. -/
def State.bulkIs (s : State) (k : Nat) (p : Bulk → Bool) : Bool :=
  match s.bulk? k with
  | some b => p b
  | none => false

/-- The chest record is in use and satisfies `p`. -/
def State.chestIs (s : State) (id : Nat) (p : Chest → Bool) : Bool :=
  match s.chest? id with
  | some c => p c
  | none => false

/-- The lane is mapped and its record satisfies `p`. -/
def State.laneIs (s : State) (n : Nat) (p : Lane → Bool) : Bool :=
  match s.lane? n with
  | some l => p l
  | none => false

/-! ## Writing records -/

def State.setLot (s : State) (k : Nat) (o : Option Lot) : State := { s with lots := s.lots.put k o }
def State.modLot (s : State) (k : Nat) (f : Lot → Lot) : State := { s with lots := s.lots.modify k f }
def State.setClass (s : State) (k : Nat) (o : Option TareClass) : State := { s with classes := s.classes.put k o }
def State.setBulk (s : State) (k : Nat) (o : Option Bulk) : State := { s with bulks := s.bulks.put k o }
def State.modBulk (s : State) (k : Nat) (f : Bulk → Bulk) : State := { s with bulks := s.bulks.modify k f }
def State.setLane (s : State) (n : Nat) (o : Option Lane) : State := { s with lanes := s.lanes.put n o }
def State.modLane (s : State) (n : Nat) (f : Lane → Lane) : State := { s with lanes := s.lanes.modify n f }
def State.setChest (s : State) (id : Nat) (o : Option Chest) : State := { s with chests := s.chests.put id o }
def State.modChest (s : State) (id : Nat) (f : Chest → Chest) : State := { s with chests := s.chests.modify id f }
def State.setStation (s : State) (a : Nat) (v : Station) : State :=
  { s with stations := s.stations.setD Station.cold a v }
def State.modStation (s : State) (a : Nat) (f : Station → Station) : State := s.setStation a (f (s.station a))
def State.setVerification (s : State) (a : Nat) (v : Verification) : State :=
  { s with verifications := s.verifications.setD Verification.cold a v }
def State.setHead (s : State) (a : Nat) (v : Head) : State := { s with heads := s.heads.setD Head.cold a v }
def State.modHead (s : State) (a : Nat) (f : Head → Head) : State := s.setHead a (f (s.head a))
def State.setWait (s : State) (a : Nat) (v : WaitKind) : State := { s with waits := s.waits.setD WaitKind.none a v }
def State.setNotice (s : State) (k : NoticeKind) (v : Notice) : State :=
  { s with notices := s.notices.setD Notice.cold k.code v }
def State.setPool (s : State) (p : List Nat) : State := { s with pool := p }
def State.setBuffer (s : State) (b : Buffer) : State := { s with buffer := b }

/-! ## Small arithmetic -/

/-- A 16-bit counter rises by one and stays at 65 535 (R145, R55). -/
def bump (n : Nat) : Nat := min (n + 1) Config.counterTop

/-- The station addresses in ascending order. -/
def addresses : List Nat := [1, 2, 3, 4, 5, 6, 7, 8, 9, 10, 11, 12, 13, 14]

/-- The lane numbers in ascending order. -/
def laneNumbers : List Nat := [1, 2, 3, 4, 5, 6, 7, 8]

/-- The status of the first check of a rule's table that fails; each check is (it passes, status on failure). -/
def firstFailing : List (Bool × Status) → Option Status
  | [] => none
  | (ok, st) :: rest => if ok then firstFailing rest else some st

/-- A command refused with a status and no data; a refused command changes nothing (R164). -/
def refuse (s : State) (st : Status) : State × Reply := (s, { status := st, data := [] })

/-- A command taken with OK. -/
def okay (s : State) (data : List Byte) : State × Reply := (s, { status := .ok, data := data })

/-- The usual form of a host command's rule: its checks in order, then its effect. -/
def checked (s : State) (checks : List (Bool × Status)) (effect : State × Reply) : State × Reply :=
  match firstFailing checks with
  | some st => refuse s st
  | none => effect

/-! ## Worked figures -/

/-- The commitment C of a non-free lot (R4). -/
def Lot.commitment (l : Lot) : Nat :=
  match l.state with
  | .opened | .packing => l.planned
  | .finishing | .complete | .declared => l.accepted

/-- The sum of the commitments of all non-free lots (R4). -/
def State.commitments (s : State) : Nat := (s.lots.map (fun e => e.2.commitment)).sum

/-- The balance limit L of a bulk (R62). -/
def Bulk.limit (b : Bulk) : Nat := b.charged + b.charged * b.allowance / 1000

/-- The cap room of a component (R53, R67), signed. -/
def Component.capRoom (c : Component) (planned : Nat) : Int := (c.maxShare * planned / 1000 : Nat) - (c.charged : Int)

/-- The accepted chests of a lot. -/
def Chest.inLot (c : Chest) (k : Nat) : Bool :=
  match c.place with
  | .accepted lot _ _ => lot == k
  | _ => false

/-- The accepted chests of a lot, with their ids, in rising id. -/
def State.acceptedChests (s : State) (k : Nat) : List (Nat × Chest) := s.chests.filter (fun e => e.2.inLot k)

/-- The id of the accepted chest of a lot with a serial. -/
def State.chestBySerial (s : State) (k serial : Nat) : Option (Nat × Chest) :=
  s.chests.find (fun _ c => match c.place with
    | .accepted lot n _ => lot == k && n == serial
    | _ => false)

/-- The mapped lane whose scale station is `a`; at most one is (R72). -/
def State.laneOf (s : State) (a : Nat) : Option (Nat × Lane) := s.lanes.find (fun _ l => l.scale == a)

/-- The division and capacity resolved for a scale. -/
def Station.division (v : Station) : Nat :=
  match v.abilities with
  | some (.scale d _) => d
  | _ => 0

def Station.capacity (v : Station) : Nat :=
  match v.abilities with
  | some (.scale _ c) => c
  | _ => 0

/-- The print time and mark interval resolved for a stencil head. -/
def Station.printMs (v : Station) : Nat :=
  match v.abilities with
  | some (.stencil p _) => p
  | _ => 0

def Station.markMs (v : Station) : Nat :=
  match v.abilities with
  | some (.stencil _ i) => i
  | _ => 0

/-- The maximum charge resolved for a bin. -/
def Station.maxCharge (v : Station) : Nat :=
  match v.abilities with
  | some (.bin m) => m
  | _ => 0

/-- A CHARGING bulk names the bin in a component. -/
def Bulk.claims (b : Bulk) (a : Nat) : Bool := b.state == .charging && b.components.any (fun c => c.bin == a)

/-- The CHARGING bulk that names a bin; at most one does (R50). -/
def State.bulkOf (s : State) (a : Nat) : Option (Nat × Bulk) := s.bulks.find (fun _ b => b.claims a)

/-- The pool has room while it holds fewer than 64 (R34). -/
def State.poolRoom (s : State) : Bool := s.pool.length < Config.poolCapacity

/-- The queue of a head has room for one more job (R113). -/
def State.queueRoom (s : State) (a : Nat) : Bool := (s.head a).queue.length < Config.queueCapacity

/-- The lot may count one more chest (R8). -/
def Lot.room (l : Lot) : Bool := l.accepted + l.tentative < l.planned

/-- A station address from 1 to 14 whose expected kind is `k`. -/
def State.isKind (s : State) (a : Nat) (k : StationKind) : Bool :=
  1 ≤ a && a ≤ 14 && (s.station a).kind == k

/-- The station is ACTIVE on the link. -/
def State.isActive (s : State) (a : Nat) : Bool := (s.station a).join == .active

/-- The scale is fit for use: VERIFIED or DUE (chapter 7). -/
def VerifyState.fit : VerifyState → Bool
  | .at (.verified _) => true
  | .at (.due _) => true
  | _ => false

/-- The lot is OPEN or PACKING. -/
def Lot.takesChests (l : Lot) : Bool := l.state == .opened || l.state == .packing

/-- The chest has a job exactly while its mark job field is present (R37). -/
def Chest.idleMark (c : Chest) : Bool := c.job.isNone

/-- The place is HELD. -/
def Place.isHeld : Place → Bool
  | .held _ _ => true
  | _ => false

/-- The place is ACCEPTED. -/
def Place.isAccepted : Place → Bool
  | .accepted _ _ _ => true
  | _ => false

/-- The lane is HELD. -/
def LaneState.isHeld : LaneState → Bool
  | .held _ => true
  | _ => false

/-- The head is PAUSED. -/
def HeadState.isPaused : HeadState → Bool
  | .paused _ => true
  | _ => false

/-- The record is TESTING. -/
def VerifyState.isTesting : VerifyState → Bool
  | .testing _ _ _ => true
  | _ => false

end Sys2Proof.Machine
end

