-- ==== Sys2Proof/Machine/Flags.lean ====
section
/-! DEFINITION. The notice set and the two lines RDY and NOTICE, every flag of the part that an event sets (section 9.4),
and the lines worked from them (R161 to R163, R170). -/

namespace Sys2Proof.Machine

/-- Every notice kind, in code order. -/
def noticeKinds : List NoticeKind :=
  [.lotFilled, .lotComplete, .laneHeld, .laneWatch, .chestHeld, .balance, .holdFull, .headPaused, .markUncertain,
   .queueEmpty, .queueLow, .stationLost, .stationRefused, .verifyDue, .scaleSuspended, .chargeUncertain, .overshoot,
   .purgeDone, .restarted]

/-- A kind is raised (R167). A rule that names no source (PURGE_DONE) leaves the last source as it is. -/
def Notice.raised (n : Notice) (source : Option Nat) : Notice :=
  { n with
    repeated := n.repeated || n.pending
    pending := true
    source := match source with
      | some x => some x
      | none => n.source }

/-- Raises a notice kind in the update of the event (R167). -/
def State.raise (s : State) (k : NoticeKind) (source : Option Nat) : State :=
  s.setNotice k ((s.notice k).raised source)

/-- Which of several records a rule takes last when it states no order (assumption 16). -/
def lastTaken (records : List Nat) : Option Nat := records[Config.takenLast records % records.length]?

/-- The last source of a kind that one update has raised for several records in no stated order (R167, assumption 16). -/
def State.lastSource (s : State) (k : NoticeKind) (records : List Nat) : State :=
  if records.length ≤ 1 then s else s.setNotice k { s.notice k with source := lastTaken records }

/-- NOTICE is asserted while at least one kind is pending and enabled; it is released in RETAIN (R170). -/
def State.noticeLine (s : State) : Bool :=
  s.part != .retain && noticeKinds.any (fun k => (s.notice k).pending && (s.notice k).enable)

/-- RDY is high while a response is READY; it is low in RETAIN (section 9.1, R175). -/
def State.rdyLine (s : State) : Bool :=
  s.part != .retain && match s.buffer with
    | .ready _ => true
    | _ => false

/-- The number of kinds whose pending flag is set (R166). -/
def State.pendingKinds (s : State) : Nat := (noticeKinds.filter (fun k => (s.notice k).pending)).length

/-- The tare class is locked (R2): a non-free lot names it, or a lane mapped to the HOLD target names it. -/
def State.classLocked (s : State) (k : Nat) : Bool :=
  s.lots.any (fun e => e.2.tareClass == k) || s.lanes.any (fun e => e.2.target == .hold && e.2.tareClass == k)

end Sys2Proof.Machine
end

