-- ==== Sys2Proof/Machine/Layouts.lean ====
section
/-! DEFINITION. What the part writes: the data of every response (R183, R184, section 11.4) and the outbound words of the
link (section 11.2, R185). Layouts that section 11.4 does not give follow R183: the figures in the order their rule
names them, an optional figure preceded by a presence byte, a list by a count byte (assumption 8 lists the readings of
that rule which the manual leaves open). -/

namespace Sys2Proof.Machine

/-! ## Figures -/

/-- An unsigned number in `n` bytes, most significant first. -/
def be : Nat → Nat → List Byte
  | 0, _ => []
  | n + 1, v => be n (v / 256) ++ [BitVec.ofNat 8 v]

/-- One byte. -/
def u1 (v : Nat) : List Byte := be 1 v
def u2 (v : Nat) : List Byte := be 2 v
def u4 (v : Nat) : List Byte := be 4 v

/-- A mass in four bytes, two's complement; a mass that four signed bytes cannot hold is a free value (assumption 7). -/
def s4 (x : Int) : List Byte :=
  if -2147483648 ≤ x ∧ x < 2147483648 then be 4 (BitVec.ofInt 32 x).toNat
  else be 4 (Config.massOutsideFormat x).toNat

/-- An option in one byte (R183). A flag goes in a byte of its own too, the model's reading (assumption 35). -/
def flag (b : Bool) : List Byte := u1 (if b then 1 else 0)

/-- `n` zero bytes. -/
def zeros (n : Nat) : List Byte := List.replicate n 0

/-- An optional figure without a presence byte of its own: zero bytes when absent. -/
def orZero (n : Nat) (o : Option Nat) : List Byte := be n (o.getD 0)

/-- An optional figure: a presence byte, and zero bytes when absent. -/
def optional (n : Nat) (o : Option Nat) : List Byte := flag o.isSome ++ orZero n o

/-- A text field: a length byte and its full width of bytes (R184). -/
def text (width : Nat) (t : List Byte) : List Byte := u1 t.length ++ t ++ zeros (width - t.length)

/-- A list: a count byte and its entries. -/
def listed {α : Type} (f : α → List Byte) (l : List α) : List Byte := u1 l.length ++ l.flatMap f

/-- A set of presence bits as a number, bit 0 first. -/
def bitSet : List Bool → Nat
  | [] => 0
  | b :: bs => (if b then 1 else 0) + 2 * bitSet bs

/-! ## Reads of chapters 1 to 3 -/

/-- READ_TARE_CLASS (R3): the set flag, the fields present, the locked flag. The fields go in the order of the record's
table, nominal tare, window, spread limit, the model's reading (assumption 8). -/
def State.classData (s : State) (k : Nat) : List Byte :=
  let c := s.class? k
  flag c.isSome ++ optional 2 (c.map (·.nominal)) ++
    (match c.bind (·.window) with
      | some (lo, hi) => flag true ++ u2 lo ++ u2 hi
      | none => flag false ++ zeros 4) ++
    optional 2 (c.map (·.spread)) ++ flag (s.classLocked k)

/-- READ_LOT of a non-free lot: 69 bytes (section 11.4). -/
def Lot.data (l : Lot) : List Byte :=
  u1 l.state.code ++ u1 (bitSet [l.minTare.isSome, l.declaration.isSome]) ++ u4 l.invoice ++ text 12 l.garden ++
  text 6 l.grade ++ u1 l.season ++ u1 l.bulk ++ u1 l.tareClass ++ s4 l.declNet ++ u2 l.step ++ u2 l.margin ++
  u1 l.planned ++ u2 l.sampleLimit ++ flag l.overmark ++ u1 l.accepted ++ u1 l.tentative ++ u1 l.outstanding ++
  u1 (FinishCause.code l.cause) ++ s4 l.grossTotal ++ s4 l.tareTotal ++ s4 l.netTotal ++ orZero 2 l.minTare ++
  orZero 2 l.maxTare ++ s4 l.sampleTotal ++ u1 l.sampledCount ++ u1 l.reweighedCount ++ u1 l.mappedLanes ++
  u1 l.commitment

/-- READ_LOT: a FREE slot carries the state alone. -/
def lotData (o : Option Lot) : List Byte :=
  match o with
  | none => u1 0
  | some l => l.data

/-- READ_DECLARATION: 59 bytes (section 11.4). -/
def declarationData (l : Lot) (d : Declaration) : List Byte :=
  u4 l.invoice ++ text 12 l.garden ++ text 6 l.grade ++ u1 l.season ++ u1 d.count ++ s4 d.declaredNet ++
  s4 d.invoiceNet ++ s4 d.grossTotal ++ s4 d.tareTotal ++ u2 d.averageTare ++ s4 d.excess ++ u2 d.giveaway ++
  u2 d.tareSpread ++ u1 (bitSet [d.tareMixed, d.offRecipe]) ++ u1 d.reweighedCount ++ u1 d.sampledCount ++
  s4 d.sampleTotal

/-- The place of a held chest in the pool, counted from 1 at the longest held (R36). -/
def State.poolPosition (s : State) (id : Nat) : Option Nat :=
  if id ∈ s.pool then some (s.pool.idxOf id + 1) else none

/-- READ_CHEST of a record in use: 38 bytes (section 11.4). -/
def State.chestData (s : State) (id : Nat) (c : Chest) : List Byte :=
  let lot := match c.place with | .tentative k => some k | .accepted k _ _ => some k | .held _ _ => none
  let serial := match c.place with | .accepted _ n _ => some n | _ => none
  let origin := match c.place with | .held _ o => o | _ => none
  let hold := match c.place with | .held r _ => some r.code | _ => none
  let bulk := match c.place with | .accepted _ _ b => some b | _ => none
  let fail := c.failReason.map FailReason.code
  let position := s.poolPosition id
  u1 c.place.code ++
  u2 (bitSet [lot.isSome, serial.isSome, origin.isSome, c.recNet.isSome, fail.isSome, hold.isSome, bulk.isSome,
    c.job.isSome, c.markHead.isSome, position.isSome]) ++
  u2 id ++ orZero 1 lot ++ orZero 1 serial ++ orZero 1 origin ++ u1 c.lane ++ u1 c.scale ++ s4 c.gross ++
  u2 c.tare ++ u1 c.tareSource.code ++ u1 c.division ++ s4 c.net ++ s4 (c.recNet.getD 0) ++ orZero 1 fail ++
  flag c.reweighed ++ orZero 1 hold ++ orZero 1 bulk ++ u2 c.sample ++ u1 c.mark.code ++
  orZero 1 (c.job.map JobKind.code) ++ orZero 1 c.markHead ++ u1 c.reprints ++ orZero 1 position ++
  u1 s.pool.length

/-- READ_CHEST of a FREE record: the same 38 bytes, its presence bits clear. -/
def State.freeChestData (s : State) (id : Nat) : List Byte := zeros 3 ++ u2 id ++ zeros 32 ++ u1 s.pool.length

/-- A component in READ_BULK: its fields in the order of section 3.1. -/
def Component.data (c : Component) : List Byte :=
  u1 c.bin ++ text 6 c.source ++ u2 c.minShare ++ u2 c.maxShare ++ s4 c.charged ++ u2 c.count ++
  (match c.claim with
    | .grant g => flag true ++ s4 g ++ flag false ++ zeros 4
    | .uncertain g => flag false ++ zeros 4 ++ flag true ++ s4 g
    | .none => zeros 10)

/-- READ_BULK (R67): a FREE slot carries the state alone. The record's component count is sent once, as the count byte of
the component list, and OFF_RECIPE and OVERSHOOT in a byte each, the model's readings (assumptions 8, 35). -/
def bulkData (o : Option Bulk) : List Byte :=
  match o with
  | none => u1 0
  | some b =>
    u1 b.state.code ++ u2 b.number ++ text 6 b.grade ++ s4 b.planned ++ u2 b.allowance ++
    listed Component.data b.components ++ s4 b.charged ++ s4 b.drawn ++ flag b.offRecipe ++ flag b.overshoot ++
    u1 b.lotRefs ++ listed (fun c => s4 (c.capRoom b.planned)) b.components ++ s4 ((b.planned : Int) - b.charged) ++
    s4 b.limit ++ s4 ((b.limit : Int) - b.drawn)

/-! ## Reads of chapters 4, 6 and 8 -/

/-- The hold reason of a lane, where present. -/
def LaneState.reason : LaneState → Option LaneHold
  | .running => none
  | .holdPending r => some r
  | .held r => some r

/-- READ_LANE (R85): an UNMAPPED lane carries the state alone. The fields go in the order of the table of section 4.1, and
the pending individual tare, a tare T, in two bytes, the model's readings (assumption 8). -/
def State.laneData (s : State) (n : Nat) : List Byte :=
  match s.lane? n with
  | none => u1 0
  | some l =>
    let stencil := match l.target with | .lot _ a => some a | .hold => none
    let invoice := match l.target with | .lot k _ => some (s.lotD k).invoice | .hold => none
    u1 l.state.code ++ u1 l.target.code ++ u1 l.scale ++ optional 1 stencil ++ u1 l.tareMode.code ++ u1 l.tareClass ++
    optional 2 l.pendingTare ++ flag l.watch ++ flag l.oneShot ++ optional 1 (l.state.reason.map LaneHold.code) ++
    optional 2 l.tentative ++ flag (s.wait l.scale != .none) ++ optional 4 invoice

/-- A job in READ_HEAD (R129). -/
def State.jobData (s : State) (j : Job) : List Byte :=
  let c := s.chestD j.chest
  let place := match c.place with | .accepted k n _ => (k, n) | _ => (0, 0)
  u2 j.chest ++ u1 j.kind.code ++ u1 place.1 ++ u1 place.2 ++ u1 c.mark.code

/-- READ_HEAD (R129). An expired interval timer is sent as an absent figure, presence 0 and zero bytes (assumption 8), and
the index of the next mark word in one byte (assumption 35): the model's readings. -/
def State.headData (s : State) (a : Nat) : List Byte :=
  let h := s.head a
  let pause := match h.state with | .paused r => some r.code | _ => none
  let fault := match h.state with | .paused (.fault c) => some c.code | _ => none
  let mark := match (s.station a).abilities with | some (.stencil p i) => some (i, p) | _ => none
  u1 h.state.code ++ optional 1 pause ++ optional 1 fault ++ flag h.oneMark ++ optional 4 h.interval ++
  optional 1 (h.message.map (·.next)) ++ optional 4 h.reply ++ optional 4 (mark.map (·.1)) ++
  optional 4 (mark.map (·.2)) ++ listed s.jobData h.queue

/-- The period timer of a record, in its state or kept in TESTING. -/
def VerifyState.periodTimer : VerifyState → Option Nat
  | .at (.verified t) => some t
  | .testing (.verified t) _ _ => some t
  | _ => none

/-- The grace timer of a record, in its state or kept in TESTING. -/
def VerifyState.graceTimer : VerifyState → Option Grace
  | .at (.due g) => some g
  | .testing (.due g) _ _ => some g
  | _ => none

/-- Time remaining of a grace timer: 0 once expired. -/
def Grace.ms : Grace → Nat
  | .running t => t
  | .expired => 0

/-- The verification part of READ_STATION: bytes 39 to 77. -/
def Verification.data (v : Verification) : List Byte :=
  let prior := match v.state with | .testing p _ _ => some p.code | _ => none
  let mass := match v.state with | .testing _ m _ => some m | _ => none
  let sent := match v.state with | .testing _ _ b => b | _ => false
  u1 (bitSet [v.state.periodTimer.isSome, v.state.graceTimer.isSome, v.state.graceTimer == some .expired,
    prior.isSome, mass.isSome, sent, v.abilities.isSome, v.lastTest.isSome]) ++
  u1 v.state.code ++ u2 v.period ++ u1 v.grace ++ u1 v.action.code ++ u2 v.tolerance ++
  orZero 4 v.state.periodTimer ++ orZero 4 (v.state.graceTimer.map Grace.ms) ++ orZero 1 prior ++
  s4 (mass.getD 0) ++ orZero 1 (v.abilities.map (·.1)) ++ orZero 4 (v.abilities.map (·.2)) ++
  (match v.lastTest with
    | some t => s4 t.mass ++ s4 t.reading ++ s4 t.difference ++ flag (!t.pass)
    | none => zeros 13)

/-- The two resolved figures of READ_STATION. -/
def Abilities.figures : Abilities → Nat × Nat
  | .scale d c => (d, c)
  | .stencil p i => (p, i)
  | .bin m => (m, 0)

/-- READ_STATION: 78 bytes (section 11.4). -/
def State.stationData (s : State) (a : Nat) : List Byte :=
  let v := s.station a
  let window := match v.join with | .announcing w => some w | _ => none
  let inhibit := match v.join with | .lost i => some i | _ => none
  let order := match v.order with
    | some o => o.code
    | none => if (s.head a).message.isSome then 3 else 0
  u1 v.kind.code ++ u2 v.interval ++ u1 v.join.code ++
  u1 (bitSet [window.isSome, inhibit.isSome, v.pages.isSome, v.abilities.isSome]) ++ u2 v.silence ++
  orZero 1 window ++ orZero 2 inhibit ++ orZero 1 (v.pages.map (fun p => p.kind.code)) ++
  orZero 4 (v.pages.bind (·.pageB)) ++ orZero 4 (v.pages.bind (·.pageC)) ++
  orZero 4 (v.abilities.map (fun b => b.figures.1)) ++ orZero 4 (v.abilities.map (fun b => b.figures.2)) ++
  orZero 1 (v.slot.map (fun c => c.kindCode + 1)) ++ u1 v.answers.length ++ u1 order ++ flag v.lostSinceRead ++
  u2 v.parityErrors ++ u2 v.addressErrors ++ u2 v.busyAnswers ++ u2 v.losses ++
  (if v.kind = .scale then (s.verification a).data else zeros 39)

/-! ## Reads of chapter 9 -/

/-- An entry of READ_NOTICES (R168). -/
def Notice.data (n : Notice) : List Byte := flag n.pending ++ flag n.enable ++ flag n.repeated ++ optional 1 n.source

/-- READ_NOTICES and CLEAR_NOTICES (R168). -/
def State.noticesData (s : State) : List Byte := listed (fun k => (s.notice k).data) noticeKinds

/-- READ_PART (R166). While a purge runs, the number of pending kinds is the one the purge began with (R179, assumption 28);
the other records that it counts stand still by themselves. -/
def State.partData (s : State) : List Byte :=
  u2 Config.vendorCode ++ u2 Config.partCode ++ u1 Config.revision ++ u1 s.part.code ++ u1 s.restartKind.code ++
  u1 s.restartCause.code ++ flag s.purgeFinished ++ u2 s.commitments ++ u1 s.pool.length ++
  u2 (Config.chestRecords - s.chests.length) ++
  u1 (if s.part = .purging then s.noticesAtPurge else s.pendingKinds)

/-! ## Outbound link words (section 11.2) -/

/-- A word of address, kind and payload, its parity bit making the count of ones odd. -/
def linkWord (address kind payload : Nat) : LinkWord :=
  let w := BitVec.ofNat 32 (address * 2 ^ 28 + kind * 2 ^ 24 + payload % 2 ^ 23 * 2)
  if oddParity w then w else w ||| 1#32

/-- The cycle head word: address 0, kind 15, the cycle number. -/
def cycleHead (n : Nat) : LinkWord := linkWord 0 15 (n % 2 ^ 16)

/-- POLL with the join state as the part holds it. -/
def pollWord (a : Nat) (j : Join) : LinkWord := linkWord a 0 j.code

/-- ANSWER, GRANT or REFUSE. -/
def answerWord (a : Nat) : Answer → LinkWord
  | .answer c v => linkWord a 1 (c.code * 2 ^ 16 + v % 2 ^ 16)
  | .grant m => linkWord a 2 (m % 2 ^ 19)
  | .refuse => linkWord a 5 0

/-- ORDER: TEST with the test mass, or TEST_END. -/
def orderWord (a : Nat) : Order → LinkWord
  | .test m => linkWord a 3 (m % 2 ^ 17)
  | .testEnd => linkWord a 3 (2 ^ 22)

/-- Three character codes in a word, the first in the high six bits; past the end of the text code 63 (R184). That the 18
bits are the low ones of the 19 content bits, with bit 18 sent as 0, is the model's reading (assumption 34). -/
def charsWord (t : List Byte) (at0 : Nat) : Nat :=
  let code (i : Nat) : Nat :=
    match t[i]? with
    | some b => (charCode b).getD 63
    | none => 63
  code at0 * 2 ^ 12 + code (at0 + 1) * 2 ^ 6 + code (at0 + 2)

/-- Content of mark word `i` (section 11.2). -/
def MarkFields.content (f : MarkFields) (i : Nat) : Nat :=
  if i = 0 then f.kind.code * 2 ^ 17 + f.serial % 2 ^ 7 * 2 ^ 10 + bitsAt f.invoice 19 1
  else if i ≤ 4 then charsWord f.garden (3 * (i - 1))
  else if i ≤ 6 then charsWord f.grade (3 * (i - 5))
  else if i = 7 then f.invoice % 2 ^ 19
  else if i = 8 then f.printedNet % 2 ^ 19
  else if i = 9 then f.gross % 2 ^ 19
  else f.season % 2 ^ 7

/-- MARK with a word index and that word's content. -/
def markWord (a : Nat) (f : MarkFields) (i : Nat) : LinkWord := linkWord a 4 (i * 2 ^ 19 + f.content i)

end Sys2Proof.Machine
end

