-- ==== Sys2Proof/Machine/Shared.lean ====
section
/-! DEFINITION. The updates that several commands share, each the work of the block that owns the records (scope file,
"Block Diagram"): answers and call slots, lane holds, lot completion, mark queues, the hold pool, the removal of a lot's
last chest. -/

namespace Sys2Proof.Machine

/-! ## Events at a station -/

/-- An event at a station while the part is not in RETAIN; any other moment, and an address that is none, is not this
event (assumption 2). -/
def atStation (a : Nat) (enabled : Bool) (effect : State) (s : State) : State :=
  if s.part ≠ .retain ∧ isAddress a ∧ enabled then effect else s

/-- The taking of a call by its owner: `effect` is the update of the call in the slot of `a`, if it is one that the owner
takes. While the part is PURGING no owner takes a call (R153, R179). -/
def takeFrom (a : Nat) (effect : Call → Option State) (s : State) : State :=
  if s.part = .running ∧ isAddress a then ((s.station a).slot.bind effect).getD s else s

/-! ## Answers and call slots (R151, R153) -/

/-- The answer is a BUSY, a WRONG_CALL or a REFUSE, of which a second is not placed while one waits (R151). -/
def Answer.merges : Answer → Bool
  | .answer .busy _ => true
  | .answer .wrongCall _ => true
  | .refuse => true
  | _ => false

/-- An answer list with an answer placed at its end, or merged with one of its kind (R151). -/
def placeAtEnd (l : List Answer) (x : Answer) : List Answer :=
  if x.merges && l.contains x then l else l ++ [x]

/-- The answer is a PENDING. -/
def Answer.isPending : Answer → Bool
  | .answer .pending _ => true
  | _ => false

/-- An answer list with a call's result placed: in the place of that call's waiting PENDING, or at the end (R151). -/
def placeResultIn : List Answer → Answer → List Answer
  | [], x => [x]
  | y :: l, x => if y.isPending then x :: l else y :: placeResultIn l x

/-- A station has an answer list only while it is ACTIVE or REFUSED (R151). -/
def Join.hears : Join → Bool
  | .active => true
  | .refused => true
  | _ => false

/-- An answer placed by the Controller at a word's arrival. -/
def State.placeAnswer (s : State) (a : Nat) (x : Answer) : State :=
  s.modStation a (fun v => if v.join.hears then { v with answers := placeAtEnd v.answers x } else v)

/-- The result of a call, placed by the owner that takes it. -/
def State.placeResult (s : State) (a : Nat) (x : Answer) : State :=
  s.modStation a (fun v => if v.join.hears then { v with answers := placeResultIn v.answers x } else v)

/-- A call is taken or discarded: its slot is emptied and its wait kind becomes NONE (R89, R153). -/
def State.clearSlot (s : State) (a : Nat) : State :=
  (s.modStation a (fun v => { v with slot := none })).setWait a .none

/-- A call is taken and answered. -/
def State.answerCall (s : State) (a : Nat) (code : AnswerCode) (value : Nat) : State :=
  (s.clearSlot a).placeResult a (.answer code value)

/-! ## Lane holds (R80 to R83) and unmapping (R74) -/

/-- The lane has work in flight: a tentative chest, or a call of its scale waiting for room (section 4.5). -/
def State.workInFlight (s : State) (l : Lane) : Bool := l.tentative.isSome || s.wait l.scale != .none

/-- A hold cause reaches a lane (R80). `auto` is false for HOLD_LANE, whose own update raises no LANE_HELD. -/
def State.holdCause (s : State) (n : Nat) (r : LaneHold) (auto : Bool) : State :=
  match s.lane? n with
  | none => s
  | some l =>
    if l.state = .running then
      if s.workInFlight l then s.setLane n (some { l with state := .holdPending r, oneShot := false })
      else
        let t := s.setLane n (some { l with state := .held r, oneShot := false })
        if auto then t.raise .laneHeld (some n) else t
    else s

/-- A HOLD_PENDING lane whose last work in flight has ended becomes HELD and raises LANE_HELD (R80). -/
def State.settleLane (s : State) (n : Nat) : State :=
  match s.lane? n with
  | none => s
  | some l =>
    match l.state with
    | .holdPending r =>
      if s.workInFlight l then s
      else (s.setLane n (some { l with state := .held r })).raise .laneHeld (some n)
    | _ => s

/-- A lot loses a mapped lane (R7). -/
def Lot.unmapped (l : Lot) : Lot :=
  { l with
    mappedLanes := l.mappedLanes - 1
    state := if l.state = .packing ∧ l.mappedLanes = 1 then .opened else l.state }

/-- A lane is unmapped (R74). A call of its scale that waits for room waits no longer (R109); it stays in its slot for its
next evaluation (assumption 13). -/
def State.unmapLane (s : State) (n : Nat) : State :=
  match s.lane? n with
  | none => s
  | some l =>
    let t := (s.setLane n none).setWait l.scale .none
    match l.target with
    | .hold => t
    | .lot k _ => t.modLot k Lot.unmapped

/-- The lane is mapped to lot `k`. -/
def Lane.feeds (l : Lane) (k : Nat) : Bool :=
  match l.target with
  | .lot slot _ => slot == k
  | .hold => false

/-- Every lane mapped to a lot is unmapped, by its fill or close (R10, R13). -/
def State.unmapLanesOf (s : State) (k : Nat) : State :=
  laneNumbers.foldl (fun t n => match t.lane? n with
    | some l => if l.feeds k then t.unmapLane n else t
    | none => t) s

/-! ## Lots: completion, fill, removal (R10, R12, R14 to R16) -/

/-- A FINISHING lot with no outstanding mark and every accepted chest MARKED becomes COMPLETE (R12). -/
def State.evalComplete (s : State) (k : Nat) : State :=
  match s.lot? k with
  | none => s
  | some l =>
    if l.state = .finishing ∧ l.outstanding = 0 ∧ (s.acceptedChests k).all (fun e => e.2.mark == .marked) then
      (s.modLot k (fun l => { l with state := .complete })).raise .lotComplete (some k)
    else s

/-- The lot fills when an acceptance has brought a to the planned count (R10); its lanes are unmapped last. -/
def State.fillIfFull (s : State) (k : Nat) : State :=
  match s.lot? k with
  | none => s
  | some l =>
    if l.accepted = l.planned then
      (((s.modLot k (fun l => { l with state := .finishing, cause := some .filled })).raise
        .lotFilled (some k)).unmapLanesOf k).evalComplete k
    else s

/-- The lot's part of an acceptance (R9), but for the outstanding mark, which the job's appending adds. -/
def Lot.accept (l : Lot) (gross tare recNet : Nat) (reweighed wasTentative : Bool) : Lot :=
  { l with
    accepted := l.accepted + 1
    tentative := if wasTentative then l.tentative - 1 else l.tentative
    grossTotal := l.grossTotal + gross
    tareTotal := l.tareTotal + tare
    netTotal := l.netTotal + recNet
    minTare := if l.accepted = 0 then some tare else l.minTare.map (min tare)
    maxTare := if l.accepted = 0 then some tare else l.maxTare.map (max tare)
    reweighedCount := if reweighed then l.reweighedCount + 1 else l.reweighedCount }

/-- The lot's part of the removal of its last-serial chest (R14, R15, R16). `rest` are the tares of the chests that
remain accepted. -/
def Lot.remove (l : Lot) (gross tare recNet : Nat) (reweighed : Bool) (rest : List Nat) : Lot :=
  let edge := l.minTare = some tare ∨ l.maxTare = some tare
  { l with
    accepted := l.accepted - 1
    grossTotal := l.grossTotal - gross
    tareTotal := l.tareTotal - tare
    netTotal := l.netTotal - recNet
    reweighedCount := if reweighed then l.reweighedCount - 1 else l.reweighedCount
    minTare := if edge then rest.min? else l.minTare
    maxTare := if edge then rest.max? else l.maxTare
    state := if l.state = .finishing then .opened else l.state
    cause := if l.state = .finishing then none else l.cause }

/-- The lot's t falls by one (R8). -/
def Lot.lessTentative (l : Lot) : Lot := { l with tentative := l.tentative - 1 }

/-- A lot's last-serial chest leaves its lot: the changes of R14 to R16 in the lot, and its N_rec given back to the bulk
named in its bulk field (R63). The chest record itself is left to the command. -/
def State.removeLast (s : State) (id : Nat) : State :=
  let c := s.chestD id
  match c.place with
  | .accepted k _ b =>
    let rest := ((s.acceptedChests k).filter (fun e => e.1 != id)).map (fun e => e.2.tare)
    (s.modLot k (fun l => l.remove c.gross c.tare (c.recNet.getD 0) c.reweighed rest)).modBulk b
      (fun u => { u with drawn := u.drawn - c.recNet.getD 0 })
  | _ => s

/-! ## Chests and the hold pool (R29 to R36) -/

/-- The lowest-numbered FREE record among `n` records from `i` up (R29). -/
def firstFree (m : Table Chest) : Nat → Nat → Option Nat
  | 0, _ => none
  | n + 1, i => if (m.get? i).isNone then some i else firstFree m n (i + 1)

/-- The record that the next creation takes (R29). -/
def State.freeRecord (s : State) : Option Nat := firstFree s.chests Config.chestRecords 0

/-- A chest enters the hold pool at its end (R35). -/
def State.holdChest (s : State) (id : Nat) (c : Chest) (r : HoldReason) (origin : Option Nat) : State :=
  (s.setChest id (some { c with place := .held r origin })).setPool (s.pool ++ [id])

/-- A chest leaves the hold pool; those behind it close up (R36). -/
def State.leavePool (s : State) (id : Nat) : State := s.setPool (s.pool.filter (fun j => j != id))

/-- A record becomes FREE (R30); a held one also leaves the pool. -/
def State.freeChest (s : State) (id : Nat) : State := (s.setChest id none).leavePool id

/-- The tentative chest of a lane is settled by a force hold or a warm restart (R34): appended to the pool while it has
room, and freed when it has not; its lot's t falls by one, and the lane no longer names it. -/
def State.settleTentative (s : State) (n id : Nat) (r : HoldReason) : State :=
  let c := s.chestD id
  let lot := match c.place with | .tentative k => some k | _ => none
  let t := if s.poolRoom then s.holdChest id c r lot else s.freeChest id
  let t := match lot with | some k => t.modLot k Lot.lessTentative | none => t
  t.modLane n (fun l => { l with tentative := none })

/-! ## Mark queues (R113 to R115) -/

/-- A mark job joins the end of a queue (R114). -/
def State.appendJob (s : State) (a id : Nat) (kind : JobKind) : State :=
  let t := s.modHead a (fun h =>
    { h with
      queue := h.queue ++ [{ chest := id, kind := kind }]
      state := if h.state = .idle then .ready else h.state })
  let t := t.modChest id (fun c => { c with mark := .queued, job := some kind, markHead := some a })
  match (t.chestD id).place with
  | .accepted k _ _ => t.modLot k (fun l => { l with outstanding := l.outstanding + 1 })
  | _ => t

/-- A chest's job has left its queue with a mark status: its mark job field becomes absent, its lot's outstanding marks
fall by one and the lot's completion is evaluated (R11, R12, R37). -/
def State.settleMark (s : State) (id : Nat) (status : MarkStatus) : State :=
  let t := s.modChest id (fun c => { c with mark := status, job := none })
  match (t.chestD id).place with
  | .accepted k _ _ => (t.modLot k (fun l => { l with outstanding := l.outstanding - 1 })).evalComplete k
  | _ => t

/-- The queue notices of an update that took a queue's length from `before` to `after` (R115). -/
def State.queueNotices (s : State) (a before after : Nat) : State :=
  let t := if 1 ≤ before ∧ after = 0 then s.raise .queueEmpty (some a) else s
  if 4 ≤ before ∧ after ≤ 3 then t.raise .queueLow (some a) else t

/-- The mark status of a chest whose job is cancelled: a QUEUED one becomes UNMARKED, the chest of a kept job stays
UNCERTAIN (R127). -/
def MarkStatus.cancelled (m : MarkStatus) : MarkStatus := if m = .queued then .unmarked else m

/-- The jobs of a queue that `out` picks are cancelled in one update (R82, R127); a READY head whose queue it empties
becomes IDLE. -/
def State.cancelJobs (s : State) (a : Nat) (out : Job → Bool) : State :=
  let h := s.head a
  let kept := h.queue.filter (fun j => !out j)
  let t := s.setHead a { h with queue := kept, state := if h.state = .ready ∧ kept = [] then .idle else h.state }
  let t := (h.queue.filter out).foldl (fun t j => t.settleMark j.chest (t.chestD j.chest).mark.cancelled) t
  t.queueNotices a h.queue.length kept.length

/-- How many jobs of a queue `out` picks. -/
def State.countJobs (s : State) (a : Nat) (out : Job → Bool) : Nat := ((s.head a).queue.filter out).length

/-- The front job leaves its queue with a mark status (R120 to R122). -/
def State.frontLeaves (s : State) (a : Nat) (status : MarkStatus) : State :=
  match (s.head a).queue with
  | [] => s
  | j :: rest => (s.modHead a (fun h => { h with queue := rest })).settleMark j.chest status

/-! ## Acceptance (R9, R41, R100, R102) -/

/-- A chest is accepted into a lot with a recorded net: its record, the lot's counts and totals, the bulk's W and the
FIRST job on a head. The lot's fill is left to the end of the update (R100). -/
def State.acceptChest (s : State) (id : Nat) (c : Chest) (k head recNet : Nat) (wasTentative : Bool) : State :=
  let l := s.lotD k
  let c := { c with place := .accepted k (l.accepted + 1) l.bulk, recNet := some recNet, reprints := 0 }
  (((s.setChest id (some c)).modLot k
      (fun l => l.accept c.gross c.tare recNet c.reweighed wasTentative)).modBulk l.bulk
      (fun u => { u with drawn := u.drawn + recNet })).appendJob head id .first

/-- The acceptance test (R96, R40): the fail reason, or the recorded net. -/
inductive TestResult where
  | fail (reason : FailReason)
  | pass (recNet : Nat)
  deriving DecidableEq, Repr

/-- The acceptance test of a net N with a division d against a lot's D, r and U (R96, R97). -/
def acceptanceTest (l : Lot) (net : Int) (d : Nat) : TestResult :=
  if l.margin < d then .fail .resolution
  else if net < l.declNet + d then .fail .short
  else if (l.declNet : Int) + l.margin < net then .fail .over
  else .pass (net.toNat / l.step * l.step)

/-- The balance test (R62). -/
def Bulk.balances (b : Bulk) (recNet : Nat) : Bool := b.drawn + recNet ≤ b.limit

end Sys2Proof.Machine
end

