-- ==== Sys2Proof/Machine/Port.lean ====
section
/-! DEFINITION. The Command Port (sections 9.1 and 9.2): the end of a command window, the taking of a latched frame, and
the read window. -/

namespace Sys2Proof.Machine

/-- The response frame is placed in the buffer, which becomes READY (R162, section 11.3). -/
def State.respond (s : State) (code : Byte) (r : Reply) : State :=
  s.setBuffer (.ready (code :: (u1 r.status.code ++ u1 r.data.length ++ r.data)))

/-- The parameters of a frame, from the bytes after its code: `none` when the window ended before the parameter length,
when the number of bytes sent differs from it, or when it exceeds 100 (R162 check 1). -/
def frameParams : List Byte → Option (List Byte)
  | [] => none
  | n :: ps => if ps.length = n.toNat ∧ n.toNat ≤ 100 then some ps else none

/-- The frame that is latched and not yet taken, while the port works: its code and the bytes after it. -/
def State.latched (s : State) : Option (Byte × List Byte) :=
  if s.part = .retain then none
  else match s.buffer with
    | .preparing (c :: rest) => some (c, rest)
    | _ => none

/-- Taking the latched frame of the command `code` (R162): the port's checks in order, BAD_FRAME, then BUSY while PURGING
but for a command that is taken then (R179), and the owner's rule, all in one update. A latched frame of another command
is not this event (assumption 2). -/
def takeCommand {α : Type} (code : Byte) (read : List Byte → Option α) (whilePurging : Bool)
    (own : α → State → State × Reply) (s : State) : State :=
  match s.latched with
  | none => s
  | some (c, rest) =>
    if c ≠ code then s
    else match (frameParams rest).bind read with
      | none => s.respond code { status := .badFrame, data := [] }
      | some p =>
        if s.part = .purging ∧ !whilePurging then s.respond code { status := .busy, data := [] }
        else
          let out := own p s
          out.1.respond code out.2

/-- COMMAND_WINDOW_END (R161). In RETAIN chip select is ignored. -/
def windowEnd (bytes : List Byte) (s : State) : State :=
  if s.part = .retain ∨ !isCommandWindow bytes then s
  else match s.buffer with
    | .preparing _ => s
    | _ => s.setBuffer (.preparing bytes)

/-- UNKNOWN_COMMAND (R162): BAD_FRAME comes before NO_SUCH, and both before the check for PURGING. -/
def takeUnknown (s : State) : State :=
  match s.latched with
  | none => s
  | some (c, rest) =>
    if c ∈ commandCodes then s
    else s.respond c { status := if (frameParams rest).isSome then .noSuch else .badFrame, data := [] }

/-- `n` bytes of a frame from its first byte, and filler past its end. -/
def shiftOut (frame : List Byte) (n : Nat) : List Byte :=
  frame.take n ++ List.replicate (n - frame.length) Config.filler

/-- READ_WINDOW (R163). In RETAIN chip select is ignored. -/
def readWindow (n : Nat) (s : State) : State :=
  if s.part = .retain then s
  else match s.buffer with
    | .ready r => { s with sdo := shiftOut r n, buffer := if r.length ≤ n then .read r else .ready r }
    | .read r => { s with sdo := shiftOut r n }
    | _ => { s with sdo := shiftOut [] n }

def execCommandWindowEnd (bytes : List Byte) (s : State) : Host.Outcome State Fault Refusal := .next (windowEnd bytes s)
def execUnknownCommand (s : State) : Host.Outcome State Fault Refusal := .next (takeUnknown s)
def execReadWindow (n : Nat) (s : State) : Host.Outcome State Fault Refusal := .next (readWindow n s)

end Sys2Proof.Machine
end

