-- ==== Sys2Proof/Machine/Bulks.lean ====
section
/-! DEFINITION. The bulk commands (chapter 3): opening, settling, mixing, spending, freeing and reading a bulk. -/

namespace Sys2Proof.Machine

/-- The share bands of a recipe can be met (R50 check 4). -/
def sharesOk (cs : List ComponentParams) : Bool :=
  cs.all (fun c => c.minShare ≤ c.maxShare && c.maxShare ≤ 1000) &&
  (cs.map (·.minShare)).sum ≤ 1000 && 1000 ≤ (cs.map (·.maxShare)).sum

/-- Every parameter of OPEN_BULK lies in its range (R50 check 3). -/
def OpenBulkParams.inRange (p : OpenBulkParams) : Bool :=
  1 ≤ p.number && p.number ≤ 9999 && decide (10000 ≤ p.planned) && decide (p.planned ≤ 9999999) &&
  p.allowance ≤ 20 && textOk 6 p.grade && 1 ≤ p.components.length && p.components.length ≤ 6 &&
  p.components.all (fun c => textOk 6 c.source && isAddress c.bin) && decide ((p.components.map (·.bin)).Nodup)

/-- The bulk of OPEN_BULK as it is taken (R51). -/
def OpenBulkParams.bulk (p : OpenBulkParams) : Bulk :=
  { state := .charging, number := p.number, grade := p.grade, planned := p.planned.toNat, allowance := p.allowance
    components := p.components.map (fun c =>
      { bin := c.bin, source := c.source, minShare := c.minShare, maxShare := c.maxShare, charged := 0, count := 0
        claim := .none })
    charged := 0, drawn := 0, offRecipe := false, overshoot := false, lotRefs := 0 }

/-- OPEN_BULK (R50, R51). -/
def openBulk (p : OpenBulkParams) (s : State) : State × Reply :=
  checked s [
    (p.slot < Config.bulkSlots, .noSuch),
    ((s.bulk? p.slot).isNone, .badState),
    (p.inRange, .badValue),
    (sharesOk p.components, .badValue),
    (p.components.all (fun c => s.isKind c.bin .bin), .badState),
    (p.components.all (fun c => s.bulks.all (fun e => !e.2.claims c.bin)), .badState),
    (s.bulks.all (fun e => e.2.number != p.number), .duplicate)]
    (okay (s.setBulk p.slot (some p.bulk)) [])

/-- A counted mass overshoots its grant by more than 20 per mille of it (R56). -/
def overshoots (m g : Nat) : Bool := g + g * 20 / 1000 < m

/-- A charge of `m` grams counted in component `i` against `g` grams (R55, R56, R59). -/
def Bulk.count (b : Bulk) (i m g : Nat) : Bulk :=
  { b with
    components := b.components.modify i (fun c =>
      { c with charged := c.charged + m, count := bump c.count, claim := .none })
    charged := b.charged + m
    overshoot := b.overshoot || overshoots m g }

/-- A charge is counted in a bulk, and an overshoot raises its notice (R56). -/
def State.countCharge (s : State) (k i m g : Nat) : State :=
  let t := s.modBulk k (fun b => b.count i m g)
  if overshoots m g then t.raise .overshoot (some k) else t

/-- The uncertain mass of a component. -/
def Component.uncertain? (c : Component) : Option Nat :=
  match c.claim with
  | .uncertain g => some g
  | _ => none

/-- SETTLE_CHARGE (R59). -/
def settleCharge (p : SettleParams) (s : State) : State × Reply :=
  let b := s.bulkD p.slot
  let c := b.components[p.component - 1]?
  checked s [
    (p.slot < Config.bulkSlots, .noSuch),
    (s.bulkIs p.slot (fun b => b.state == .charging), .badState),
    (1 ≤ p.component && p.component ≤ b.components.length, .noSuch),
    (decide (0 ≤ p.mass) && decide (p.mass ≤ 500000), .badValue),
    ((c.bind Component.uncertain?).isSome, .badState)]
    (okay (s.countCharge p.slot (p.component - 1) p.mass.toNat ((c.bind Component.uncertain?).getD 0)) [])

/-- A component lies below its minimum share of K (R61). -/
def Component.below (c : Component) (charged : Nat) : Bool := c.charged * 1000 < c.minShare * charged

/-- A component lies above its maximum share of K (R61). -/
def Component.above (c : Component) (charged : Nat) : Bool := c.maxShare * charged < c.charged * 1000

/-- The components outside their bands, by number from 1 (R60). -/
def offComponents (charged : Nat) : Nat → List Component → List (Nat × Component)
  | _, [] => []
  | n, c :: cs =>
    if c.below charged || c.above charged then (n, c) :: offComponents charged (n + 1) cs
    else offComponents charged (n + 1) cs

/-- A component named by OFF_RECIPE: its number, in one byte by the model's reading (assumption 35), charged mass and side
(R60, R183). -/
def offData (charged : Nat) (e : Nat × Component) : List Byte :=
  u1 e.1 ++ s4 e.2.charged ++ u1 (if e.2.below charged then 0 else 1)

/-- The component owes nothing: no grant in flight and no uncertain mass. -/
def Component.clear (c : Component) : Bool := c.claim == .none

/-- MIX_BULK (R60, R61). -/
def mixBulk (p : Nat × Nat) (s : State) : State × Reply :=
  let b := s.bulkD p.1
  let off := offComponents b.charged 1 b.components
  checked s [
    (p.1 < Config.bulkSlots, .noSuch),
    (p.2 ≤ 1, .badValue),
    (s.bulkIs p.1 (fun b => b.state == .charging), .badState),
    (b.components.all Component.clear, .inFlight),
    (b.charged != 0, .badState)]
    (if p.2 = 0 ∧ off ≠ [] then (s, { status := .offRecipe, data := listed (offData b.charged) off })
     else okay (s.modBulk p.1 (fun b =>
       { b with state := .mixed, offRecipe := b.offRecipe || !off.isEmpty })) [])

/-- The lot is OPEN, PACKING or FINISHING on bulk `k`. -/
def Lot.draws (l : Lot) (k : Nat) : Bool :=
  l.bulk == k && (l.state == .opened || l.state == .packing || l.state == .finishing)

/-- SPEND_BULK (R65). -/
def spendBulk (k : Nat) (s : State) : State × Reply :=
  checked s [
    (k < Config.bulkSlots, .noSuch),
    (s.bulkIs k (fun b => b.state == .mixed), .badState),
    (s.lots.all (fun e => !e.2.draws k), .badState)]
    (okay (s.modBulk k (fun b => { b with state := .spent })) [])

/-- FREE_BULK (R66). -/
def freeBulk (k : Nat) (s : State) : State × Reply :=
  let b := s.bulkD k
  checked s [
    (k < Config.bulkSlots, .noSuch),
    ((s.bulk? k).isSome, .badState),
    (b.lotRefs == 0, .badState),
    (b.components.all Component.clear, .inFlight)]
    (okay (s.setBulk k none) [])

/-- READ_BULK (R67). -/
def readBulk (p : Named) (s : State) : State × Reply :=
  match p with
  | .slot k => checked s [(k < Config.bulkSlots, .noSuch)] (okay s (bulkData (s.bulk? k)))
  | .number n =>
    let found := s.bulks.find (fun _ b => b.number == n)
    checked s [(1 ≤ n && n ≤ 9999, .badValue), (found.isSome, .noSuch)] (okay s (bulkData (found.map (·.2))))
  | .bad => refuse s .badValue

def execOpenBulk (s : State) : Host.Outcome State Fault Refusal :=
  .next (takeCommand codeOpenBulk readOpenBulk false openBulk s)
def execMixBulk (s : State) : Host.Outcome State Fault Refusal :=
  .next (takeCommand codeMixBulk readPair false mixBulk s)
def execSettleCharge (s : State) : Host.Outcome State Fault Refusal :=
  .next (takeCommand codeSettleCharge readSettle false settleCharge s)
def execSpendBulk (s : State) : Host.Outcome State Fault Refusal :=
  .next (takeCommand codeSpendBulk readOne false spendBulk s)
def execFreeBulk (s : State) : Host.Outcome State Fault Refusal :=
  .next (takeCommand codeFreeBulk readOne false freeBulk s)
def execReadBulk (s : State) : Host.Outcome State Fault Refusal :=
  .next (takeCommand codeReadBulk (readNamed 2) false readBulk s)

end Sys2Proof.Machine
end

