-- ==== Sys2Proof/Machine/Charging.lean ====
section
/-! DEFINITION. The Bulk Table's taking of a bin's calls (sections 3.3 and 3.4): CALL_CHARGE and CALL_DONE. -/

namespace Sys2Proof.Machine

/-- The number, from 0, and the record of the component that names a bin. -/
def Bulk.componentOf (b : Bulk) (a : Nat) : Option (Nat × Component) :=
  (b.components.findIdx? (fun c => c.bin == a)).bind (fun i => (b.components[i]?).map (fun c => (i, c)))

/-- The CHARGING bulk and the component that a bin's call is matched to (R52): slot, bulk, component number from 0 and
component. -/
def State.chargeTarget (s : State) (a : Nat) : Option (Nat × Bulk × Nat × Component) :=
  (s.bulkOf a).bind (fun e => (e.2.componentOf a).map (fun f => (e.1, e.2, f.1, f.2)))

/-- The grant for a request of `q` grams to a component (R53), which may be zero or below. -/
def grantFor (b : Bulk) (c : Component) (q maxCharge : Nat) : Int :=
  min (min (q : Int) (c.capRoom b.planned)) (min ((b.planned : Int) - b.charged) maxCharge)

/-- Component `i` of a bulk is given a grant in flight (R52). -/
def Bulk.grant (b : Bulk) (i g : Nat) : Bulk :=
  { b with components := b.components.modify i (fun c => { c with claim := .grant g }) }

/-- The Bulk Table answers a charge request (R52). No rule states the value that NO_BULK, UNCERTAIN, IN_FLIGHT and FULL
carry: 0, the model's reading of R185 (assumption 32). -/
def State.answerCharge (s : State) (a q : Nat) : State :=
  match s.chargeTarget a with
  | none => s.answerCall a .noBulk 0
  | some (k, b, i, c) =>
    match c.claim with
    | .uncertain _ => s.answerCall a .uncertain 0
    | .grant _ => s.answerCall a .inFlight 0
    | .none =>
      let g := grantFor b c q (s.station a).maxCharge
      if g ≤ 0 then s.answerCall a .full 0
      else ((s.modBulk k (fun b => b.grant i g.toNat)).clearSlot a).placeResult a (.grant g.toNat)

/-- The Bulk Table answers a charge completion (R55). The value 0 of NO_BULK and UNCERTAIN is the model's reading
(assumption 32). -/
def State.answerDone (s : State) (a m : Nat) : State :=
  match s.chargeTarget a with
  | none => s.answerCall a .noBulk 0
  | some (k, _, i, c) =>
    match c.claim with
    | .uncertain _ => s.answerCall a .uncertain 0
    | .grant g => (s.countCharge k i m g).answerCall a .chargeCounted (bump c.count)
    | .none => (s.countCharge k i m 0).answerCall a .chargeCounted (bump c.count)

/-- CALL_CHARGE (R52, R53). -/
def callCharge (a : Nat) (s : State) : State :=
  takeFrom a (fun c => match c with
    | .charge q => some (s.answerCharge a q)
    | _ => none) s

/-- CALL_DONE (R55, R56). -/
def callDone (a : Nat) (s : State) : State :=
  takeFrom a (fun c => match c with
    | .done m => some (s.answerDone a m)
    | _ => none) s

def execCallCharge (a : Nat) (s : State) : Host.Outcome State Fault Refusal := .next (callCharge a s)
def execCallDone (a : Nat) (s : State) : Host.Outcome State Fault Refusal := .next (callDone a s)

end Sys2Proof.Machine
end

