-- ==== Sys2Proof/Machine/Chests.lean ====
section
/-! DEFINITION. The chest commands (chapter 2): reading, assigning, returning and voiding a chest. -/

namespace Sys2Proof.Machine

/-- A chest record as READ_CHEST sends it. -/
def State.readRecord (s : State) (id : Nat) : List Byte :=
  match s.chest? id with
  | some c => s.chestData id c
  | none => s.freeChestData id

/-- READ_CHEST (R38). -/
def readChest (p : ChestName) (s : State) : State × Reply :=
  match p with
  | .id n => checked s [(n < Config.chestRecords, .noSuch)] (okay s (s.readRecord n))
  | .serial k n =>
    let found := s.chestBySerial k n
    checked s [
      (k < Config.lotSlots && s.lotIs k (fun l => 1 ≤ n && n ≤ l.accepted) && found.isSome, .noSuch)]
      (okay s (s.readRecord ((found.map (·.1)).getD 0)))
  | .position n =>
    checked s [
      (1 ≤ n && n ≤ Config.poolCapacity, .badValue),
      (n ≤ s.pool.length, .noSuch)]
      (okay s (s.readRecord ((s.pool[n - 1]?).getD 0)))
  | .bad => refuse s .badValue

/-- The division that ASSIGN_HELD tests with (R40): the larger of the chest's division at weighing and the current
resolved division of its scale station when that is an ACTIVE scale. -/
def State.assignDivision (s : State) (c : Chest) : Nat :=
  if (s.station c.scale).kind = .scale ∧ s.isActive c.scale then max c.division (s.station c.scale).division
  else c.division

/-- The reason REFUSED_TEST carries (R183): RESOLUTION 0, SHORT 1, OVER 2, BALANCE 3. -/
def refusedTest (s : State) (reason : Nat) : State × Reply := (s, { status := .refusedTest, data := u1 reason })

/-- ASSIGN_HELD (R39, R40, R41). -/
def assignHeld (p : AssignParams) (s : State) : State × Reply :=
  let c := s.chestD p.chest
  let l := s.lotD p.slot
  checked s [
    (p.chest < Config.chestRecords && p.slot < Config.lotSlots, .noSuch),
    (s.chestIs p.chest (fun c => c.place.isHeld), .badState),
    (s.lotIs p.slot Lot.takesChests, .badState),
    (s.bulkIs l.bulk (fun b => b.state == .mixed), .badState),
    (l.room, .noRoom),
    (s.isKind p.head .stencil, .badValue),
    (s.queueRoom p.head, .noRoom)]
    (match acceptanceTest l c.net (s.assignDivision c) with
     | .fail reason => refusedTest s reason.code
     | .pass recNet =>
       if (s.bulkD l.bulk).balances recNet then
         okay (((s.leavePool p.chest).acceptChest p.chest c p.slot p.head recNet false).fillIfFull p.slot)
           (u1 (l.accepted + 1))
       else refusedTest s 3)

/-- The lot lets its last chest be removed: OPEN, PACKING, or FINISHING with cause FILLED (R16). -/
def Lot.mayRemove (l : Lot) : Bool := l.takesChests || (l.state == .finishing && l.cause == some .filled)

/-- Checks 3 to 5 of R42 for an accepted chest. -/
def State.removable (s : State) (c : Chest) : List (Bool × Status) :=
  match c.place with
  | .accepted k n _ => [
      (s.lotIs k Lot.mayRemove, .badState),
      (n == (s.lotD k).accepted, .badState),
      (c.idleMark, .inFlight)]
  | _ => [(false, .badState)]

/-- The lot of an accepted chest. -/
def Place.lot? : Place → Option Nat
  | .accepted k _ _ => some k
  | _ => none

/-- Checks 1 and 2 of R42: the id lies in range and the chest is ACCEPTED. -/
def State.isAccepted (s : State) (id : Nat) : List (Bool × Status) := [
  (id < Config.chestRecords, .noSuch),
  (s.chestIs id (fun c => c.place.isAccepted), .badState)]

/-- RETURN_CHEST (R42, R43). -/
def returnChest (id : Nat) (s : State) : State × Reply :=
  let c := s.chestD id
  checked s (s.isAccepted id ++ s.removable c ++ [(s.poolRoom, .noRoom)])
    (okay ((s.removeLast id).holdChest id c .returned c.place.lot?) (u1 (s.pool.length + 1)))

/-- VOID_CHEST (R44, R45). -/
def voidChest (id : Nat) (s : State) : State × Reply :=
  if s.chestIs id (fun c => c.place.isHeld) then
    checked s [(id < Config.chestRecords, .noSuch)] (okay (s.freeChest id) [])
  else
    checked s (s.isAccepted id ++ s.removable (s.chestD id)) (okay ((s.removeLast id).freeChest id) [])

def execReadChest (s : State) : Host.Outcome State Fault Refusal :=
  .next (takeCommand codeReadChest readChestName false readChest s)
def execAssignHeld (s : State) : Host.Outcome State Fault Refusal :=
  .next (takeCommand codeAssignHeld readAssign false assignHeld s)
def execReturnChest (s : State) : Host.Outcome State Fault Refusal :=
  .next (takeCommand codeReturnChest readChestId false returnChest s)
def execVoidChest (s : State) : Host.Outcome State Fault Refusal :=
  .next (takeCommand codeVoidChest readChestId false voidChest s)

end Sys2Proof.Machine
end

