-- ==== Sys2Proof/Machine/Heads.lean ====
section
/-! DEFINITION. The head commands (section 6.6): pausing, resuming and flushing a head, reprinting a chest, reading a
head. -/

namespace Sys2Proof.Machine

/-- A head after PAUSE_HEAD (R125); the one-mark flag is cleared in every case. -/
def Head.pauseAsked (h : Head) : Head :=
  { h with
    oneMark := false
    state := match h.state with
      | .idle => .paused .host
      | .ready => .paused .host
      | .sending => .pausePending
      | .printing => .pausePending
      | .pausePending => .pausePending
      | .paused r => .paused r }

/-- PAUSE_HEAD (R125). -/
def pauseHead (a : Nat) (s : State) : State × Reply :=
  checked s [(s.isKind a .stencil, .noSuch)]
    (let t := s.modHead a Head.pauseAsked
     okay t (u1 (t.head a).state.code))

/-- A head that RESUME_HEAD takes: PAUSED or PAUSE_PENDING. -/
def HeadState.resumes : HeadState → Bool
  | .paused _ => true
  | .pausePending => true
  | _ => false

/-- A head after RESUME_HEAD (R126). Words remain to send while the reply timer does not run. -/
def Head.resumed (h : Head) (one : Bool) : Head :=
  { h with
    oneMark := one
    state := match h.state with
      | .paused _ => if h.queue = [] then .idle else .ready
      | .pausePending => if h.reply.isSome then .printing else .sending
      | other => other }

/-- RESUME_HEAD (R126). -/
def resumeHead (p : Nat × Nat) (s : State) : State × Reply :=
  let a := p.1
  checked s [
    (s.isKind a .stencil, .noSuch),
    (p.2 ≤ 1, .badValue),
    ((s.head a).state.resumes, .badState)]
    (let t := s.modHead a (fun h => h.resumed (p.2 == 1))
     okay t (u1 (t.head a).state.code))

/-- FLUSH_HEAD (R127). -/
def flushHead (a : Nat) (s : State) : State × Reply :=
  checked s [
    (s.isKind a .stencil, .noSuch),
    ((s.head a).state.isPaused, .badState)]
    (okay (s.cancelJobs a (fun _ => true)) (u1 (s.head a).queue.length))

/-- REPRINT (R128). That the answered position in the queue counts the front job as 1 (assumption 33) and goes in one byte
(assumption 35) are the model's readings. -/
def reprintChest (p : ReprintParams) (s : State) : State × Reply :=
  checked s [
    (p.chest < Config.chestRecords, .noSuch),
    (s.isKind p.head .stencil, .badValue),
    (s.chestIs p.chest (fun c => c.place.isAccepted), .badState),
    ((s.chestD p.chest).idleMark, .inFlight),
    (s.queueRoom p.head, .noRoom)]
    (let t := (s.modChest p.chest (fun c => { c with reprints := min (c.reprints + 1) 255 })).appendJob
       p.head p.chest .reprint
     okay t (u1 ((s.head p.head).queue.length + 1)))

/-- READ_HEAD (R129). -/
def readHead (a : Nat) (s : State) : State × Reply :=
  checked s [(s.isKind a .stencil, .noSuch)] (okay s (s.headData a))

def execPauseHead (s : State) : Host.Outcome State Fault Refusal :=
  .next (takeCommand codePauseHead readOne false pauseHead s)
def execResumeHead (s : State) : Host.Outcome State Fault Refusal :=
  .next (takeCommand codeResumeHead readPair false resumeHead s)
def execFlushHead (s : State) : Host.Outcome State Fault Refusal :=
  .next (takeCommand codeFlushHead readOne false flushHead s)
def execReprint (s : State) : Host.Outcome State Fault Refusal :=
  .next (takeCommand codeReprint readReprint false reprintChest s)
def execReadHead (s : State) : Host.Outcome State Fault Refusal :=
  .next (takeCommand codeReadHead readOne false readHead s)

end Sys2Proof.Machine
end

