-- ==== Sys2Proof/Machine/Lanes.lean ====
section
/-! DEFINITION. The lane commands (chapter 4): mapping, unmapping, holding, force-holding, releasing and reading a
lane. -/

namespace Sys2Proof.Machine

/-- A lane number lies in 1 to 8. -/
abbrev isLane (n : Nat) : Bool := 1 ≤ n && n ≤ 8

/-- The target and class that MAP_LANE names, when its parameters agree with one another (R72 check 2): a lot slot with
a stencil station and no class, or HOLD (255) with a class and no stencil station. -/
def MapLaneParams.target? (p : MapLaneParams) : Option (LaneTarget × Option Nat) :=
  match p.stencil, p.tareClass with
  | some (some a), some none => if p.target < Config.lotSlots ∧ isAddress a then some (.lot p.target a, none) else none
  | some none, some (some c) => if p.target = 255 ∧ c < Config.tareClasses then some (.hold, some c) else none
  | _, _ => none

/-- Tare mode of a code. -/
def tareModeOf (n : Nat) : TareSource := if n = 0 then .nominal else .individual

/-- The first state of a mapped lane (R73). -/
def State.firstLaneState (s : State) (scale : Nat) (target : LaneTarget) : LaneState :=
  if !s.isActive scale then .held .scaleAbsent
  else if (match target with
    | .lot _ stencil => !s.isActive stencil
    | .hold => false) then .held .headAbsent
  else if (s.verification scale).state = .at .suspended then .held .scaleSuspended
  else if (s.verification scale).state.isTesting then .held .scaleTesting
  else .running

/-- A lot gains a mapped lane (R7). -/
def Lot.mapped (l : Lot) : Lot :=
  { l with
    mappedLanes := l.mappedLanes + 1
    state := if l.state = .opened ∧ l.mappedLanes = 0 then .packing else l.state }

/-- The lot of a target may take a lane: it is OPEN or PACKING and its bulk is MIXED (R72 check 4). -/
def State.mayFeed (s : State) : LaneTarget → Bool
  | .lot k _ => s.lotIs k (fun l => l.takesChests && s.bulkIs l.bulk (fun b => b.state == .mixed))
  | .hold => true

/-- MAP_LANE (R72, R73). -/
def mapLane (p : MapLaneParams) (s : State) : State × Reply :=
  let tc := p.target?.getD (.hold, none)
  let target := tc.1
  let cls := match target with
    | .lot k _ => (s.lotD k).tareClass
    | .hold => tc.2.getD 0
  let state := s.firstLaneState p.scale target
  checked s [
    (isLane p.lane, .noSuch),
    (p.target?.isSome && isAddress p.scale && p.tareMode ≤ 1 && p.watch ≤ 1, .badValue),
    ((s.lane? p.lane).isNone, .badState),
    (s.mayFeed target, .badState),
    (target != .hold || (s.class? cls).isSome, .badState),
    (s.isKind p.scale .scale && (match target with
      | .lot _ a => s.isKind a .stencil
      | .hold => true), .badState),
    (s.lanes.all (fun e => e.2.scale != p.scale), .duplicate),
    (p.tareMode = 0 || (s.classD cls).window.isSome, .badState)]
    (let t := s.setLane p.lane (some
        { state := state, target := target, scale := p.scale, tareMode := tareModeOf p.tareMode, tareClass := cls
          pendingTare := none, watch := p.watch == 1, oneShot := false, tentative := none })
     let t := match target with
       | .lot k _ => t.modLot k Lot.mapped
       | .hold => t
     okay t (u1 state.code ++ optional 1 (state.reason.map LaneHold.code)))

/-- UNMAP_LANE (R74). -/
def unmapLaneCommand (n : Nat) (s : State) : State × Reply :=
  checked s [
    (isLane n, .noSuch),
    ((s.lane? n).isSome, .badState),
    ((s.laneD n).tentative.isNone, .inFlight)]
    (okay (s.unmapLane n) [])

/-- A lane's hold reason in the answer of HOLD_LANE. -/
def State.reasonData (s : State) (n : Nat) : List Byte := orZero 1 ((s.laneD n).state.reason.map LaneHold.code)

/-- HOLD_LANE without force (R81). An option byte other than 0 and 1 fails the range check. -/
def holdLane (p : Nat × Nat) (s : State) : State × Reply :=
  checked s [
    (isLane p.1, .noSuch),
    (p.2 ≤ 1, .badValue),
    ((s.lane? p.1).isSome, .badState)]
    (let t := s.holdCause p.1 .host false
     okay t (u1 (t.laneD p.1).state.code ++ t.reasonData p.1))

/-- The jobs that a force hold of lane `n` cancels: FIRST jobs still QUEUED for chests whose lane field names it (R82). -/
def State.forceCancels (s : State) (n : Nat) (j : Job) : Bool :=
  j.kind == .first && s.chestIs j.chest (fun c => c.mark == .queued && c.lane == n)

/-- The hold reason a force hold leaves: FORCED from RUNNING, the latched one otherwise (R82). -/
def LaneState.forcedReason : LaneState → LaneHold
  | .running => .forced
  | .holdPending r => r
  | .held r => r

/-- The tentative chest and the waiting call of a lane are settled by a force hold (R82). -/
def State.forceSettle (s : State) (n : Nat) : State :=
  let l := s.laneD n
  let t := match l.tentative with
    | some id => s.settleTentative n id .forced
    | none => s
  if t.wait l.scale = .none then t else t.answerCall l.scale .laneHeld 0

/-- The queued FIRST jobs of a lane's chests are cancelled in every queue (R82); in which order the queues are taken is not
stated (assumption 16). -/
def State.forceCancel (s : State) (n : Nat) : State :=
  let t := addresses.foldl (fun t a => t.cancelJobs a (t.forceCancels n)) s
  let edge (a top : Nat) : Bool := top < (s.head a).queue.length && (t.head a).queue.length ≤ top
  (t.lastSource .queueEmpty (addresses.filter (fun a => edge a 0))).lastSource .queueLow
    (addresses.filter (fun a => edge a 3))

/-- A force hold of a mapped lane (R82). -/
def State.forceHold (s : State) (n : Nat) : State :=
  let t := (s.forceSettle n).forceCancel n
  t.modLane n (fun l => { l with state := .held l.state.forcedReason, oneShot := false })

/-- HOLD_LANE with force (R82). The answer: the tentative chest's id, its fate and its position in the pool, the number
of jobs cancelled, the lane's hold reason. -/
def holdLaneForce (p : Nat × Nat) (s : State) : State × Reply :=
  let n := p.1
  checked s [
    (isLane n, .noSuch),
    ((s.lane? n).isSome, .badState)]
    (let t := s.forceHold n
     let id := (s.laneD n).tentative
     let position := id.bind t.poolPosition
     let fate := if id.isNone then 0 else if position.isSome then 1 else 2
     let cancelled := (addresses.map (fun a => s.countJobs a (s.forceCancels n))).sum
     okay t (optional 2 id ++ u1 fate ++ optional 1 position ++ u1 cancelled ++ t.reasonData n))

/-- RELEASE_LANE (R84). -/
def releaseLane (p : ReleaseParams) (s : State) : State × Reply :=
  let l := s.laneD p.lane
  checked s [
    (isLane p.lane, .noSuch),
    (p.one ≤ 1 && p.watch ≤ 2, .badValue),
    (s.laneIs p.lane (fun l => l.state.isHeld), .badState),
    (s.isActive l.scale, .badState),
    ((s.verification l.scale).state.fit, .badState),
    ((match l.target with
      | .lot _ a => s.isActive a
      | .hold => true), .badState)]
    (okay (s.setLane p.lane (some
      { l with
        state := .running
        oneShot := p.one == 1
        watch := if p.watch = 2 then l.watch else p.watch == 1 })) [])

/-- READ_LANE (R85). -/
def readLane (n : Nat) (s : State) : State × Reply :=
  checked s [(isLane n, .noSuch)] (okay s (s.laneData n))

/-- The latched frame is a whole HOLD_LANE frame with the force option on. -/
def State.latchedForce (s : State) : Bool :=
  match s.latched with
  | some (c, rest) => c == codeHoldLane && match (frameParams rest).bind readPair with
    | some p => p.2 == 1
    | none => false
  | none => false

def execMapLane (s : State) : Host.Outcome State Fault Refusal :=
  .next (takeCommand codeMapLane readMapLane false mapLane s)
def execUnmapLane (s : State) : Host.Outcome State Fault Refusal :=
  .next (takeCommand codeUnmapLane readOne false unmapLaneCommand s)
def execHoldLane (s : State) : Host.Outcome State Fault Refusal :=
  .next (if s.latchedForce then s else takeCommand codeHoldLane readPair false holdLane s)
def execHoldLaneForce (s : State) : Host.Outcome State Fault Refusal :=
  .next (if s.latchedForce then takeCommand codeHoldLane readPair false holdLaneForce s else s)
def execReleaseLane (s : State) : Host.Outcome State Fault Refusal :=
  .next (takeCommand codeReleaseLane readRelease false releaseLane s)
def execReadLane (s : State) : Host.Outcome State Fault Refusal :=
  .next (takeCommand codeReadLane readOne false readLane s)

end Sys2Proof.Machine
end

