-- ==== Sys2Proof/Machine/Link.lean ====
section
/-! DEFINITION. The Station Link Controller (chapter 8) and the sending of mark words (section 6.3): link cycles, inbound
words, joining, loss. -/

namespace Sys2Proof.Machine

/-! ## Time (assumption 3): a link cycle after the first stands for 4 ms gone by -/

/-- A head's timers count down. -/
def Head.elapse (h : Head) : Head :=
  { h with interval := h.interval.map (· - Config.cycleMs), reply := h.reply.map (· - Config.cycleMs) }

/-- The timer of a VERIFIED or DUE record counts down (R133). -/
def Standing.elapse : Standing → Standing
  | .verified t => .verified (t - Config.cycleMs)
  | .due (.running t) => .due (.running (t - Config.cycleMs))
  | other => other

/-- In TESTING a kept timer is not counted down (R133). -/
def Verification.elapse (v : Verification) : Verification :=
  { v with state := match v.state with
      | .at st => .at st.elapse
      | .testing p m b => .testing p m b }

/-- Every running timer of the part counts down. -/
def State.elapse (s : State) : State :=
  addresses.foldl (fun t a => (t.modHead a Head.elapse).setVerification a (t.verification a).elapse)
    { s with purgeTimer := s.purgeTimer.map (· - Config.cycleMs) }

/-! ## LINK_CYCLE -/

/-- The announce window expires (R147). -/
def Station.windowOver (v : Station) : Station := { v with join := .absent, pages := none }

/-- The rejoin inhibit has run (R150). -/
def Station.inhibitOver (v : Station) : Station := { v with join := .absent, silence := 0 }

/-- The refusal has run (R149). -/
def Station.refusalOver (v : Station) : Station := { v with join := .absent, silence := 0, answers := [] }

/-- The slot of a cycle has been judged: the cycle counts into the window or the inhibit, and a count that reaches its top,
the silence count of a REFUSED station among them, ends the join state in this update (R147, R149, R150; assumption 15). -/
def Station.countCycle (v : Station) : Station :=
  match v.join with
  | .announcing w =>
    if Config.windowCycles ≤ w + 1 then v.windowOver else { v with join := .announcing (w + 1) }
  | .lost i => if Config.inhibitCycles ≤ i + 1 then v.inhibitOver else { v with join := .lost (i + 1) }
  | .refused => if Config.silenceTop ≤ v.silence then v.refusalOver else v
  | .absent => v
  | .active => v

/-- A silent cycle (R145, R146). -/
def Station.silent (v : Station) : Station :=
  { v with silence := min (v.silence + 1) Config.silenceTop, slotOpen := false }.countCycle

/-- An admitted word (R145). -/
def Station.heard (v : Station) : Station := { v with silence := 0, slotOpen := false }

/-- A slot of the cycle before in which no word came is judged silent. -/
def Station.closeSlot (v : Station) : Station := if v.slotOpen then v.silent else v

/-- A new cycle opens the slot. -/
def Station.openSlot (v : Station) : Station := { v with slotOpen := true }

/-- The mark fields, assembled from the chest and lot records as they stand (R118); `none` when the job's chest is not
accepted in a non-free lot, which no run of the part reaches. -/
def State.markFields (s : State) (j : Job) : Option MarkFields :=
  match s.chest? j.chest with
  | none => none
  | some c => match c.place with
    | .accepted k serial _ => (s.lot? k).map (fun l =>
      { kind := j.kind
        serial := serial
        garden := l.garden
        grade := l.grade
        invoice := l.invoice
        printedNet := if l.overmark then c.recNet.getD 0 - c.sample else c.recNet.getD 0
        gross := c.gross
        season := l.season })
    | _ => none

/-- The next word of a message in progress is sent: after word 10 the reply timer starts (R117), and the index of the next
word is a free value (assumption 12). -/
def Head.sendNext (h : Head) (m : Message) (printMs : Nat) : Head :=
  if m.next < 10 then { h with message := some { m with next := m.next + 1 } }
  else
    { h with
      message := some { m with next := Config.indexAfterLastWord }
      reply := some (printMs + 1000)
      state := if h.state = .sending then .printing else h.state }

/-- The head has a mark word of a message in progress to send (R152). -/
def Head.sending? (h : Head) : Option Message :=
  if (h.state = .sending ∨ h.state = .pausePending) ∧ h.reply = none then h.message else none

/-- A READY head dispatches its front job (R117): word 0 goes out with the fields assembled then. -/
def State.dispatch (s : State) (a : Nat) (j : Job) (f : MarkFields) : State :=
  (s.modHead a (fun h => { h with state := .sending, message := some { fields := f, next := 1 } })).modChest
    j.chest (fun c => { c with mark := .inFlight })

/-- The front job that a head may dispatch now, with its fields (R117); none while a purge runs (R132). -/
def State.dispatchable (s : State) (a : Nat) : Option (Job × MarkFields) :=
  let h := s.head a
  if h.state = .ready ∧ s.isActive a ∧ h.interval = none ∧ s.part = .running then
    match h.queue with
    | [] => none
    | j :: _ => (s.markFields j).map (fun f => (j, f))
  else none

/-- A TEST order that is sent marks its test in progress as sent (R154). -/
def Verification.orderSent (v : Verification) : Order → Verification
  | .testEnd => v
  | .test _ => { v with state := match v.state with
      | .testing p m _ => .testing p m true
      | .at st => .at st }

/-- The outbound slot arbiter (R152): the word sent in the slot of `a`, and what its sending changes. -/
def State.outbound (s : State) (a : Nat) : State × LinkWord :=
  let v := s.station a
  match v.answers with
  | x :: rest => (s.setStation a { v with answers := rest }, answerWord a x)
  | [] => match v.order with
    | some o =>
      ((s.setStation a { v with order := none }).setVerification a ((s.verification a).orderSent o), orderWord a o)
    | none => match (s.head a).sending? with
      | some m => (s.modHead a (fun h => h.sendNext m v.printMs), markWord a m.fields m.next)
      | none => match s.dispatchable a with
        | some (j, f) => (s.dispatch a j f, markWord a f 0)
        | none => (s, pollWord a v.join)

/-- The outbound words of a cycle, in ascending address. -/
def State.sendSlots (s : State) : List Nat → State × List LinkWord
  | [] => (s, [])
  | a :: as =>
    let one := s.outbound a
    let more := one.1.sendSlots as
    (more.1, one.2 :: more.2)

/-- The number of the next cycle head (R144). -/
def nextCycle : Option Nat → Nat
  | none => 0
  | some n => (n + 1) % 65536

/-- The slots of the cycle before are closed and those of a new cycle opened. -/
def State.turnSlots (s : State) : State :=
  addresses.foldl (fun t a => t.modStation a (fun v => v.closeSlot.openSlot)) s

/-- LINK_CYCLE (R144). The link is stopped in RETAIN. -/
def linkCycle (s : State) : State :=
  if s.part = .retain then s
  else
    let n := nextCycle s.cycle
    let t := (if s.cycle.isSome then s.elapse else s).turnSlots
    let sent := t.sendSlots addresses
    { sent.1 with cycle := some n, linkOut := cycleHead n :: sent.2 }

/-! ## INBOUND_WORD -/

/-- The calls a kind of station may send (R153). -/
def StationKind.mayCall : StationKind → Call → Bool
  | .scale, .gross _ => true
  | .scale, .tare _ => true
  | .scale, .test _ => true
  | .stencil, .replyDone => true
  | .stencil, .replyFault _ => true
  | .bin, .charge _ => true
  | .bin, .done _ => true
  | _, _ => false

/-- A call arrives from an ACTIVE station (R153). -/
def State.arrive (s : State) (a : Nat) (c : Call) : State :=
  let v := s.station a
  if !v.kind.mayCall c then s.placeAnswer a (.answer .wrongCall 0)
  else if v.slot.isSome then
    (s.setStation a { v with busyAnswers := bump v.busyAnswers }).placeAnswer a (.answer .busy 0)
  else (s.setStation a { v with slot := some c }).placeAnswer a (.answer .pending 0)

/-- The resolved abilities of an announce whose pages lie within the limits of section 8.3, for the configured mark
interval `interval` (R148). -/
def resolve (kind : StationKind) (b c interval : Nat) : Option Abilities :=
  match kind with
  | .none => none
  | .scale =>
    if [1, 2, 5, 10, 20, 50, 100, 200].contains b ∧ 1000 ≤ c ∧ c ≤ 250000 then some (.scale b c) else none
  | .stencil =>
    if 100 ≤ b ∧ b ≤ 5000 ∧ 200 ≤ c ∧ c ≤ 10000 then some (.stencil b (max c interval)) else none
  | .bin => if 1000 ≤ b ∧ b ≤ 500000 ∧ c = 0 then some (.bin b) else none

/-- A scale's record at its join (R140): a VERIFIED or DUE record whose division or capacity differs from the verified
abilities becomes UNVERIFIED. -/
def Verification.rejoined (v : Verification) (x : Abilities) : Verification :=
  match x with
  | .scale d c =>
    if v.state.fit ∧ v.abilities ≠ some (d, c) then { v with state := .at .unverified, abilities := none } else v
  | _ => v

/-- A completed announce is judged (R148): the kind, and the values of pages B and C. -/
def State.judge (s : State) (a : Nat) (kind : StationKind) (b c : Nat) : State :=
  let v := s.station a
  match (if v.kind = kind then resolve kind b c v.interval else none) with
  | some x =>
    (s.setStation a { v with join := .active, silence := 0, abilities := some x }).setVerification a
      ((s.verification a).rejoined x)
  | none =>
    (s.setStation a { v with join := .refused, silence := 0, abilities := none }).raise .stationRefused (some a)

/-- A page A begins or restarts an announce (R147). -/
def Station.begin (v : Station) (kind : StationKind) : Station :=
  { v.heard with join := .announcing 0, pages := some { kind := kind, pageB := none, pageC := none } }

/-- A page taken while ANNOUNCING (R147). A page A starts the window anew and a page C that completes the announce ends it;
any other page is one more cycle of the window. -/
def State.takePage (s : State) (a : Nat) (page : Page) : State :=
  let v := s.station a
  match page with
  | .a kind => s.setStation a (v.begin kind)
  | .b x => match v.pages with
    | some { kind := k, pageB := none, pageC := none } =>
      s.setStation a { v.heard with pages := some { kind := k, pageB := some x, pageC := none } }.countCycle
    | _ => s.setStation a v.heard.countCycle
  | .c x => match v.pages with
    | some { kind := k, pageB := some b, pageC := none } =>
      (s.setStation a { v.heard with pages := some { kind := k, pageB := some b, pageC := some x } }).judge a k b x
    | _ => s.setStation a v.heard.countCycle

/-- A word of good parity and right address, by the station's join state (R146). -/
def State.admitWord (s : State) (a : Nat) (i : Inbound) : State :=
  let v := s.station a
  match v.join with
  | .absent => match i with
    | .announce (.a kind) => s.setStation a (v.begin kind)
    | .present => s.setStation a v.heard
    | _ => s.setStation a v.silent
  | .announcing _ => match i with
    | .present => s.setStation a v.heard.countCycle
    | .announce page => s.takePage a page
    | _ => s.setStation a v.silent
  | .active => match i with
    | .present => s.setStation a v.heard
    | .call c => (s.setStation a v.heard).arrive a c
    | _ => s.setStation a v.silent
  | .refused => (s.setStation a v.heard).placeAnswer a .refuse
  | .lost _ => s.setStation a v.silent

/-- The judgement of a slot and the word that came in it (R145). -/
def State.judgeSlot (s : State) (a : Nat) (w : Option LinkWord) : State :=
  let v := s.station a
  match w with
  | none => s.setStation a v.silent
  | some w =>
    if !oddParity w then s.setStation a { v.silent with parityErrors := bump v.parityErrors }
    else if wordAddress w ≠ a then s.setStation a { v.silent with addressErrors := bump v.addressErrors }
    else s.admitWord a (inboundOf w)

/-- INBOUND_WORD (R145). A cycle gives each station one inbound word (R144): with the slot of this cycle judged, or before
the first cycle, there is none to come (assumption 18). The link is stopped in RETAIN. -/
def inboundWord (a : Nat) (w : Option LinkWord) (s : State) : State :=
  atStation a (s.station a).slotOpen (s.judgeSlot a w) s

/-! ## Expiries and loss -/

/-- The announce window runs out in the cycle whose slot is open now, unless page A or page C comes in it (R147). -/
def Station.windowEnds (v : Station) : Bool :=
  v.slotOpen && match v.join with
    | .announcing w => Config.windowCycles ≤ w + 1
    | _ => false

/-- The rejoin inhibit runs out in the cycle whose slot is open now (R150). -/
def Station.inhibitEnds (v : Station) : Bool :=
  v.slotOpen && match v.join with
    | .lost i => Config.inhibitCycles ≤ i + 1
    | _ => false

/-- The refusal runs out in the cycle whose slot is open now, unless a word comes in it (R149). -/
def Station.refusalEnds (v : Station) : Bool :=
  v.slotOpen && v.join == .refused && Config.silenceTop ≤ v.silence + 1

/-- ANNOUNCE_WINDOW_EXPIRY (R147): the slot of the window's last cycle passes silent (assumption 15). -/
def announceWindowExpiry (a : Nat) (s : State) : State :=
  atStation a (s.station a).windowEnds (s.modStation a Station.silent) s

/-- REJOIN_INHIBIT_EXPIRY (R150): the slot of the inhibit's last cycle passes (assumption 15). -/
def rejoinInhibitExpiry (a : Nat) (s : State) : State :=
  atStation a (s.station a).inhibitEnds (s.modStation a Station.silent) s

/-- REFUSAL_EXPIRY (R149): the slot that makes the silence count 500 passes silent (assumption 15). -/
def refusalExpiry (a : Nat) (s : State) : State :=
  atStation a (s.station a).refusalEnds (s.modStation a Station.silent) s

/-- The station's own part of a loss (R150). -/
def Station.lose (v : Station) : Station :=
  { v with
    join := .lost 0, lostSinceRead := true, losses := bump v.losses, slot := none, answers := [], order := none }

/-- A grant in flight becomes an uncertain mass of the same amount (R58). -/
def Component.loseGrant (c : Component) : Component :=
  { c with claim := match c.claim with
      | .grant g => .uncertain g
      | other => other }

/-- The component holds a grant in flight. -/
def Component.granted (c : Component) : Bool :=
  match c.claim with
  | .grant _ => true
  | _ => false

/-- The Bulk Table's part of a loss (R58). -/
def State.loseBin (s : State) (a : Nat) : State :=
  match s.bulkOf a with
  | none => s
  | some (k, b) =>
    if b.components.any (fun c => c.bin == a && c.granted) then
      (s.modBulk k (fun b =>
        { b with components := b.components.map (fun c => if c.bin = a then c.loseGrant else c) })).raise
        .chargeUncertain (some k)
    else s

/-- The mark in flight at a head is cut off (R124, R131): the chest becomes UNCERTAIN with its job kept at the front, and
the head is PAUSED with a reason. -/
def State.cutMark (s : State) (a : Nat) (r : PauseReason) : State :=
  let h := s.head a
  if h.message.isSome then
    let t := s.setHead a { h with message := none, reply := none, state := .paused r, oneMark := false }
    let t := match h.queue with
      | j :: _ => t.modChest j.chest (fun c => { c with mark := .uncertain })
      | [] => t
    t.raise .markUncertain (some a)
  else s

/-- A record that was TESTING becomes UNVERIFIED (R140, R142). -/
def Verification.testCut (v : Verification) : Verification :=
  match v.state with
  | .testing _ _ _ => { v with state := .at .unverified, abilities := none }
  | .at _ => v

/-- Every lane that names a lost station takes its hold cause (R83). -/
def State.holdLanesOf (s : State) (a : Nat) : State :=
  laneNumbers.foldl (fun t n => match t.lane? n with
    | none => t
    | some l =>
      if l.scale = a then (t.holdCause n .scaleAbsent true).settleLane n
      else match l.target with
        | .lot _ stencil => if stencil = a then t.holdCause n .headAbsent true else t
        | .hold => t) s

/-- The Lane Map's part of a loss (R83): the lane naming the station as its scale, whose waiting call is gone, and every
lane naming it as its stencil station. In which order it takes the lanes is not stated (assumption 16). -/
def State.loseLanes (s : State) (a : Nat) : State :=
  let t := s.holdLanesOf a
  t.lastSource .laneHeld (laneNumbers.filter (fun n =>
    t.laneIs n (fun l => l.state.isHeld) && !s.laneIs n (fun l => l.state.isHeld)))

/-- The whole update of a loss (R150). -/
def State.lose (s : State) (a : Nat) : State :=
  let t := (((s.modStation a Station.lose).raise .stationLost (some a)).setWait a .none).loseBin a
  let t := t.cutMark a .lost
  (t.setVerification a (t.verification a).testCut).loseLanes a

/-- STATION_LOST (R150). -/
def stationLost (a : Nat) (s : State) : State :=
  atStation a ((s.station a).join == .active && Config.lossSilence ≤ (s.station a).silence) (s.lose a) s

def execLinkCycle (s : State) : Host.Outcome State Fault Refusal := .next (linkCycle s)
def execInboundWord (a : Nat) (w : Option LinkWord) (s : State) : Host.Outcome State Fault Refusal :=
  .next (inboundWord a w s)
def execAnnounceWindowExpiry (a : Nat) (s : State) : Host.Outcome State Fault Refusal :=
  .next (announceWindowExpiry a s)
def execStationLost (a : Nat) (s : State) : Host.Outcome State Fault Refusal := .next (stationLost a s)
def execRejoinInhibitExpiry (a : Nat) (s : State) : Host.Outcome State Fault Refusal :=
  .next (rejoinInhibitExpiry a s)
def execRefusalExpiry (a : Nat) (s : State) : Host.Outcome State Fault Refusal := .next (refusalExpiry a s)

end Sys2Proof.Machine
end

