-- ==== Sys2Proof/Machine/Lots.lean ====
section
/-! DEFINITION. The lot commands (chapter 1): opening, closing, sampling, declaring, retiring and reading a lot. -/

namespace Sys2Proof.Machine

/-- Every parameter of OPEN_LOT lies in its range (R5 check 3). -/
def OpenLotParams.inRange (p : OpenLotParams) : Bool :=
  1 ≤ p.invoice && p.invoice ≤ 999999 && textOk 12 p.garden && textOk 6 p.grade && p.season ≤ 99 &&
  p.bulk < Config.bulkSlots && p.tareClass < Config.tareClasses && decide (1000 ≤ p.declNet) &&
  decide (p.declNet ≤ 150000) && [10, 50, 100, 200].contains p.step && p.declNet.toNat % p.step == 0 &&
  p.margin ≤ 5000 && 1 ≤ p.planned && p.planned ≤ 96 && p.sampleLimit ≤ 2000 && p.overmark ≤ 1

/-- The lot of OPEN_LOT as it is taken (R6). -/
def OpenLotParams.lot (p : OpenLotParams) : Lot :=
  { state := .opened, invoice := p.invoice, garden := p.garden, grade := p.grade, season := p.season, bulk := p.bulk
    tareClass := p.tareClass, declNet := p.declNet.toNat, step := p.step, margin := p.margin, planned := p.planned
    sampleLimit := p.sampleLimit, overmark := p.overmark == 1, accepted := 0, tentative := 0, outstanding := 0
    cause := none, grossTotal := 0, tareTotal := 0, netTotal := 0, minTare := none, maxTare := none, sampleTotal := 0
    sampledCount := 0, reweighedCount := 0, mappedLanes := 0, declaration := none }

/-- OPEN_LOT (R5, R6). -/
def openLot (p : OpenLotParams) (s : State) : State × Reply :=
  checked s [
    (p.slot < Config.lotSlots, .noSuch),
    ((s.lot? p.slot).isNone, .badState),
    (p.inRange, .badValue),
    ((s.class? p.tareClass).isSome, .badState),
    (s.bulkIs p.bulk (fun b => b.grade == p.grade), .badState),
    (s.lots.all (fun e => e.2.invoice != p.invoice), .duplicate),
    (p.planned + s.commitments ≤ Config.commitmentBudget, .noRoom)]
    (okay ((s.setLot p.slot (some p.lot)).modBulk p.bulk (fun b => { b with lotRefs := b.lotRefs + 1 })) [])

/-- CLOSE_LOT (R13). -/
def closeLot (k : Nat) (s : State) : State × Reply :=
  let l := s.lotD k
  checked s [
    (k < Config.lotSlots, .noSuch),
    (s.lotIs k Lot.takesChests, .badState),
    (l.tentative == 0, .inFlight),
    (l.accepted != 0, .badState)]
    (okay (((s.modLot k (fun l => { l with state := .finishing, cause := some .closed })).unmapLanesOf k).evalComplete
      k) [])

/-- The declaration snapshot worked out from a lot, its tare class's spread limit and its bulk's flag (R20). -/
def Lot.declare (l : Lot) (spread : Nat) (offRecipe : Bool) : Declaration :=
  let n := l.accepted
  let total : Int := (n * l.declNet : Nat)
  let excess : Int := (l.netTotal : Int) - total
  let tareSpread := l.maxTare.getD 0 - l.minTare.getD 0
  { count := n
    declaredNet := l.declNet
    invoiceNet := total - l.sampleTotal
    grossTotal := l.grossTotal
    tareTotal := l.tareTotal
    averageTare := (2 * l.tareTotal + n) / (2 * n)
    excess := excess
    giveaway := (excess * 1000 / total).toNat
    tareSpread := tareSpread
    tareMixed := spread < tareSpread
    offRecipe := offRecipe
    reweighedCount := l.reweighedCount
    sampledCount := l.sampledCount
    sampleTotal := l.sampleTotal }

/-- DECLARE_LOT (R19, R20). -/
def declareLot (k : Nat) (s : State) : State × Reply :=
  let l := s.lotD k
  checked s [
    (k < Config.lotSlots, .noSuch),
    (s.lotIs k (fun l => l.state == .complete), .badState),
    (l.outstanding == 0, .inFlight),
    ((s.acceptedChests k).all (fun e => e.2.mark == .marked), .badState)]
    (okay (s.modLot k (fun l =>
      { l with
        state := .declared
        declaration := some (l.declare (s.classD l.tareClass).spread (s.bulkD l.bulk).offRecipe) })) [])

/-- A held chest forgets an origin lot whose slot is freed (R22, R31). -/
def Chest.forgetOrigin (k : Nat) (c : Chest) : Chest :=
  match c.place with
  | .held r (some o) => if o = k then { c with place := .held r none } else c
  | _ => c

/-- RETIRE_LOT (R22). -/
def retireLot (k : Nat) (s : State) : State × Reply :=
  let l := s.lotD k
  checked s [
    (k < Config.lotSlots, .noSuch),
    (s.lotIs k (fun l => l.state == .declared || (l.state == .opened && l.accepted == 0 && l.tentative == 0)),
      .badState),
    (l.outstanding == 0, .inFlight)]
    (okay { (s.modBulk l.bulk (fun b => { b with lotRefs := b.lotRefs - 1 })).setLot k none with
      chests := Table.mapVals (fun _ c => c.forgetOrigin k) (s.chests.filter (fun e => !e.2.inLot k)) } [])

/-- DRAW_SAMPLE (R17, R18). With the overmark option OFF the head is not looked at. -/
def drawSample (p : SampleParams) (s : State) : State × Reply :=
  let l := s.lotD p.slot
  let e := (s.chestBySerial p.slot p.serial).getD (0, Chest.blank)
  let c := e.2
  checked s [
    (p.slot < Config.lotSlots, .noSuch),
    (s.lotIs p.slot (fun l => l.state == .complete), .badState),
    (1 ≤ p.serial && p.serial ≤ l.accepted && (s.chestBySerial p.slot p.serial).isSome, .noSuch),
    (c.idleMark, .inFlight),
    (c.mark == .marked, .badState),
    (1 ≤ p.mass && c.sample + p.mass ≤ l.sampleLimit && c.sample + p.mass < l.declNet, .badValue),
    (!l.overmark || s.isKind p.head .stencil, .badValue),
    (!l.overmark || s.queueRoom p.head, .noRoom)]
    (let t := (s.modChest e.1 (fun c => { c with sample := c.sample + p.mass })).modLot p.slot (fun l =>
      { l with
        sampleTotal := l.sampleTotal + p.mass
        sampledCount := if c.sample = 0 then l.sampledCount + 1 else l.sampledCount })
     okay (if l.overmark then t.appendJob p.head e.1 .overmark else t) [])

/-- READ_LOT (R23). -/
def readLot (p : Named) (s : State) : State × Reply :=
  match p with
  | .slot k => checked s [(k < Config.lotSlots, .noSuch)] (okay s (lotData (s.lot? k)))
  | .number n =>
    let found := s.lots.find (fun _ l => l.invoice == n)
    checked s [(1 ≤ n && n ≤ 999999, .badValue), (found.isSome, .noSuch)] (okay s (lotData (found.map (·.2))))
  | .bad => refuse s .badValue

/-- READ_DECLARATION (R24). -/
def readDeclaration (k : Nat) (s : State) : State × Reply :=
  let l := s.lotD k
  checked s [
    (k < Config.lotSlots, .noSuch),
    (s.lotIs k (fun l => l.state == .declared), .badState)]
    (okay s (match l.declaration with
      | some d => declarationData l d
      | none => []))

def execOpenLot (s : State) : Host.Outcome State Fault Refusal :=
  .next (takeCommand codeOpenLot readOpenLot false openLot s)
def execCloseLot (s : State) : Host.Outcome State Fault Refusal :=
  .next (takeCommand codeCloseLot readOne false closeLot s)
def execDeclareLot (s : State) : Host.Outcome State Fault Refusal :=
  .next (takeCommand codeDeclareLot readOne false declareLot s)
def execRetireLot (s : State) : Host.Outcome State Fault Refusal :=
  .next (takeCommand codeRetireLot readOne false retireLot s)
def execDrawSample (s : State) : Host.Outcome State Fault Refusal :=
  .next (takeCommand codeDrawSample readSample false drawSample s)
def execReadLot (s : State) : Host.Outcome State Fault Refusal :=
  .next (takeCommand codeReadLot (readNamed 4) false readLot s)
def execReadDeclaration (s : State) : Host.Outcome State Fault Refusal :=
  .next (takeCommand codeReadDeclaration readOne false readDeclaration s)

end Sys2Proof.Machine
end

