-- ==== Sys2Proof/Machine/Marking.lean ====
section
/-! DEFINITION. The Mark Unit's taking of replies and its timers (sections 6.3 and 6.4): REPLY_DONE, REPLY_FAULT,
MARK_TIMEOUT and INTERVAL_EXPIRY. -/

namespace Sys2Proof.Machine

/-- A REPLY is awaited: the head is PRINTING, or PAUSE_PENDING with all eleven words sent (R120). -/
def Head.awaiting (h : Head) : Bool :=
  (h.state == .printing || h.state == .pausePending) && h.reply.isSome

/-- The serial of the chest of a head's front job, which a MARK_TAKEN answer carries. -/
def State.frontSerial (s : State) (a : Nat) : Nat :=
  match (s.head a).queue with
  | [] => 0
  | j :: _ => match (s.chestD j.chest).place with
    | .accepted _ serial _ => serial
    | _ => 0

/-- The head after a DONE (R120), its queue already without the job: the interval timer starts. -/
def Head.marked (h : Head) (intervalMs : Nat) : Head :=
  { h with
    message := none
    reply := none
    interval := some intervalMs
    oneMark := if h.state = .pausePending ∨ h.oneMark then false else h.oneMark
    state :=
      if h.state = .pausePending ∨ h.oneMark then .paused .host
      else if h.queue = [] then .idle else .ready }

/-- The update of a DONE reply at a head that awaits one (R120). -/
def State.markDone (s : State) (a : Nat) : State :=
  let before := (s.head a).queue.length
  let pauses := (s.head a).state = .pausePending ∨ (s.head a).oneMark
  let t := s.frontLeaves a .marked
  let t := t.modHead a (fun h => h.marked (s.station a).markMs)
  let t := if pauses then t.raise .headPaused (some a) else t
  t.queueNotices a before (before - 1)

/-- The head after a FAULT or a timeout (R121, R122): the interval timer is left as it stands. -/
def Head.faulted (h : Head) (code : FaultCode) : Head :=
  { h with message := none, reply := none, state := .paused (.fault code), oneMark := false }

/-- The update of a FAULT reply, or of a timeout, at a head that awaits a reply (R121, R122). -/
def State.markFault (s : State) (a : Nat) (status : MarkStatus) (code : FaultCode) : State :=
  let before := (s.head a).queue.length
  let t := s.frontLeaves a status
  let t := (t.modHead a (fun h => h.faulted code)).raise .headPaused (some a)
  t.queueNotices a before (before - 1)

/-- A reply taken: the update of a reply that is awaited and MARK_TAKEN with the chest's serial, or NO_MARK (R123). -/
def State.takeReply (s : State) (a : Nat) (update : State) : State :=
  if (s.head a).awaiting then update.answerCall a .markTaken (s.frontSerial a)
  else s.answerCall a .noMark 0

/-- REPLY_DONE (R120, R123). -/
def replyDone (a : Nat) (s : State) : State :=
  takeFrom a (fun c => match c with
    | .replyDone => some (s.takeReply a (s.markDone a))
    | _ => none) s

/-- REPLY_FAULT (R121, R123). -/
def replyFault (a : Nat) (s : State) : State :=
  takeFrom a (fun c => match c with
    | .replyFault code => some (s.takeReply a (s.markFault a .unmarked code))
    | _ => none) s

/-- MARK_TIMEOUT (R122). -/
def markTimeout (a : Nat) (s : State) : State :=
  atStation a ((s.head a).awaiting && (s.head a).reply == some 0)
    ((s.markFault a .uncertain .other).raise .markUncertain (some a)) s

/-- INTERVAL_EXPIRY (R119). -/
def intervalExpiry (a : Nat) (s : State) : State :=
  atStation a ((s.head a).interval == some 0) (s.modHead a (fun h => { h with interval := none })) s

def execReplyDone (a : Nat) (s : State) : Host.Outcome State Fault Refusal := .next (replyDone a s)
def execReplyFault (a : Nat) (s : State) : Host.Outcome State Fault Refusal := .next (replyFault a s)
def execMarkTimeout (a : Nat) (s : State) : Host.Outcome State Fault Refusal := .next (markTimeout a s)
def execIntervalExpiry (a : Nat) (s : State) : Host.Outcome State Fault Refusal := .next (intervalExpiry a s)

end Sys2Proof.Machine
end

