-- ==== Sys2Proof/Machine/Notices.lean ====
section
/-! DEFINITION. The commands of the Command Port's own records: READ_NOTICES, CLEAR_NOTICES, SET_NOTICE_ENABLES (section
9.4), READ_PART (R166) and PURGE (R178). -/

namespace Sys2Proof.Machine

/-- A notice set names no kind beyond the 19 (R168, R169, R183). -/
def noticeSetOk (set : Nat) : Bool := set < 2 ^ 19

/-- A notice set names a kind: its bit is set. -/
def names (set : Nat) (k : NoticeKind) : Bool := set.testBit k.code

/-- READ_NOTICES (R168). -/
def readNotices (_ : Unit) (s : State) : State × Reply := okay s s.noticesData

/-- CLEAR_NOTICES (R168): the snapshot is taken before any flag is cleared. -/
def clearNotices (set : Nat) (s : State) : State × Reply :=
  checked s [(noticeSetOk set, .badValue)]
    (okay (noticeKinds.foldl (fun t k =>
      if names set k then t.setNotice k { t.notice k with pending := false, repeated := false } else t) s)
      s.noticesData)

/-- SET_NOTICE_ENABLES (R169). -/
def setNoticeEnables (set : Nat) (s : State) : State × Reply :=
  checked s [(noticeSetOk set, .badValue)]
    (okay (noticeKinds.foldl (fun t k => t.setNotice k { t.notice k with enable := names set k }) s) (be 3 set))

/-- READ_PART (R166). -/
def readPart (_ : Unit) (s : State) : State × Reply := okay s s.partData

/-- The message in progress of a head ends without an outcome (R132). -/
def Head.messageEnds (h : Head) : Head := { h with message := none, reply := none }

/-- PURGE (R178): the records themselves are not yet changed. -/
def startPurge (_ : Unit) (s : State) : State × Reply :=
  checked s [
    (s.lots.all (fun e => e.2.state == .complete || e.2.state == .declared), .badState),
    (s.bulks.all (fun e => e.2.state != .charging), .badState)]
    (addresses.foldl (fun t a => t.modHead a Head.messageEnds)
      { s with part := .purging, purgeTimer := some Config.purgeMs, noticesAtPurge := s.pendingKinds },
      { status := .started, data := [] })

def execReadNotices (s : State) : Host.Outcome State Fault Refusal :=
  .next (takeCommand codeReadNotices readNone false readNotices s)
def execClearNotices (s : State) : Host.Outcome State Fault Refusal :=
  .next (takeCommand codeClearNotices readNoticeSet false clearNotices s)
def execSetNoticeEnables (s : State) : Host.Outcome State Fault Refusal :=
  .next (takeCommand codeSetNoticeEnables readNoticeSet false setNoticeEnables s)
def execReadPart (s : State) : Host.Outcome State Fault Refusal :=
  .next (takeCommand codeReadPart readNone true readPart s)
def execPurge (s : State) : Host.Outcome State Fault Refusal :=
  .next (takeCommand codePurge readNone false startPurge s)

end Sys2Proof.Machine
end

