-- ==== Sys2Proof/Machine/Scales.lean ====
section
/-! DEFINITION. The verification commands (sections 7.2 and 7.4): SET_VERIFY, VERIFY_SCALE and CANCEL_VERIFY. -/

namespace Sys2Proof.Machine

/-- Minutes in ms. -/
def minutes (n : Nat) : Nat := n * 60000

/-- A standing with its timer clamped to a new period and grace (R134). -/
def Standing.clamp (st : Standing) (period grace : Nat) : Standing :=
  match st with
  | .verified t => .verified (min t (minutes period))
  | .due (.running t) => .due (.running (min t (minutes grace)))
  | .due .expired => .due .expired
  | .unverified => .unverified
  | .suspended => .suspended

/-- A verification state with its running or kept timer clamped (R134). -/
def VerifyState.clamp (v : VerifyState) (period grace : Nat) : VerifyState :=
  match v with
  | .at st => .at (st.clamp period grace)
  | .testing prior mass sent => .testing (prior.clamp period grace) mass sent

/-- SET_VERIFY (R134). -/
def setVerify (p : SetVerifyParams) (s : State) : State × Reply :=
  let a := p.station
  let v := s.verification a
  checked s [
    (s.isKind a .scale, .noSuch),
    (10 ≤ p.period && p.period ≤ 1440 && p.grace ≤ 240 && p.action ≤ 1 && p.tolerance ≤ 1000, .badValue)]
    (let w := { v with
       period := p.period
       grace := p.grace
       action := if p.action = 0 then .warn else .suspend
       tolerance := p.tolerance
       state := v.state.clamp p.period p.grace }
     okay (s.setVerification a w)
       (u1 w.state.code ++ optional 4 w.state.periodTimer ++ optional 4 (w.state.graceTimer.map Grace.ms)))

/-- A record's standing when a test starts. -/
def VerifyState.standing : VerifyState → Standing
  | .at st => st
  | .testing prior _ _ => prior

/-- VERIFY_SCALE (R137). -/
def verifyScale (p : VerifyParams) (s : State) : State × Reply :=
  let a := p.station
  let v := s.verification a
  checked s [
    (s.isKind a .scale, .noSuch),
    (decide (1000 ≤ p.mass) && decide (p.mass ≤ 100000), .badValue),
    (s.isActive a, .badState),
    (decide (p.mass ≤ (s.station a).capacity), .badValue),
    (!v.state.isTesting, .badState),
    (s.lanes.all (fun e => e.2.scale != a || e.2.state.isHeld), .badState),
    ((s.station a).order.isNone, .inFlight)]
    (okay ((s.setVerification a { v with state := .testing v.state.standing p.mass.toNat false }).modStation a
      (fun st => { st with order := some (.test p.mass.toNat) })) [])

/-- CANCEL_VERIFY (R139). -/
def cancelVerify (a : Nat) (s : State) : State × Reply :=
  let v := s.verification a
  checked s [
    (s.isKind a .scale, .noSuch),
    (v.state.isTesting, .badState)]
    (match v.state with
     | .testing prior _ sent =>
       okay ((s.setVerification a { v with state := .at prior }).modStation a
         (fun st => { st with order := if sent then some .testEnd else none })) (u1 prior.code)
     | .at _ => okay s [])

def execSetVerify (s : State) : Host.Outcome State Fault Refusal :=
  .next (takeCommand codeSetVerify readSetVerify false setVerify s)
def execVerifyScale (s : State) : Host.Outcome State Fault Refusal :=
  .next (takeCommand codeVerifyScale readVerify false verifyScale s)
def execCancelVerify (s : State) : Host.Outcome State Fault Refusal :=
  .next (takeCommand codeCancelVerify readOne false cancelVerify s)

end Sys2Proof.Machine
end

