-- ==== Sys2Proof/Machine/Power.lean ====
section
/-! DEFINITION. The Retention Controller (chapter 10): the end of a season purge, the entry into RETAIN, cold starts and
warm restarts, and the supply and reset lines. -/

namespace Sys2Proof.Machine

/-! ## The end of a season purge (R180) -/

/-- A head at the end of a purge (R132). The one-mark flag is kept; that of a paused head is clear already. -/
def Head.purged (h : Head) : Head :=
  { h with
    queue := []
    interval := none
    message := none
    reply := none
    state := match h.state with
      | .paused r => .paused r
      | .pausePending => .paused .host
      | .idle | .ready | .sending | .printing => .idle }

/-- Every block empties its records under its purge rule (R27, R48, R70, R88, R112, R132). -/
def State.emptied (s : State) : State :=
  addresses.foldl (fun t a => t.modHead a Head.purged)
    { s with lots := [], chests := [], pool := [], bulks := [], lanes := [], waits := [] }

/-- The completion of a purge (R180). -/
def State.purged (s : State) : State :=
  { (s.emptied.raise .purgeDone none) with part := .running, purgeTimer := none, noticesAtPurge := 0 }

/-- PURGE_COMPLETE (R180). -/
def purgeComplete (s : State) : State := if s.part = .purging ∧ s.purgeTimer = some 0 then s.purged else s

/-! ## Entering RETAIN (R174) -/

/-- The part state that the retention marker is written with. -/
def PartState.entered : PartState → EnteredFrom
  | .purging => .purging
  | .running => .running
  | .retain => .running

/-- The entry into RETAIN (R174); in RETAIN it changes nothing. -/
def State.enterRetain (s : State) : State :=
  if s.part = .retain then s else { s with part := .retain, marker := some s.part.entered }

/-- PWRGOOD_FALL (R174). -/
def pwrgoodFall (s : State) : State := if s.pwrgood then { s.enterRetain with pwrgood := false } else s

/-- RESET_ASSERT (R174): it takes the part into RETAIN while PWRGOOD is high. -/
def resetAssert (s : State) : State :=
  if s.resetAsserted then s
  else if s.pwrgood then { s.enterRetain with resetAsserted := true }
  else { s with resetAsserted := true }

/-- VBAK_BELOW_HOLDING_LEVEL (R176): the marker is no longer valid. Out of RETAIN it is clear already. -/
def vbakBelow (s : State) : State := if s.part = .retain then { s with marker := none } else s

/-- SUPPLY_FAILS_WITHOUT_PWRGOOD_FALL (R176): no retention entry is made and the marker stays as it is. Without its supply
the part does nothing until PWRGOOD rises, and it is treated as in RETAIN then (R175; assumption 20). -/
def supplyFails (s : State) : State := if s.pwrgood then { s with part := .retain, pwrgood := false } else s

/-! ## Starts (R177) -/

/-- A cold start: every block as its cold-start rule gives it (R25, R46, R68, R86, R111, R130, R141, R158, R171). -/
def State.coldStart (s : State) (cause : RestartCause) : State :=
  { State.reset with pending := s.pending, restartCause := cause }

/-- A lane after the force hold of a warm restart (R87). -/
def Lane.restarted (l : Lane) : Lane := { l with state := .held .restart, pendingTare := none, oneShot := false }

/-- The restart's force hold of one lane (R87). -/
def State.restartLane (s : State) (n : Nat) : State :=
  match s.lane? n with
  | none => s
  | some l =>
    let t := match l.tentative with
      | some id => s.settleTentative n id .restart
      | none => s
    t.modLane n Lane.restarted

/-- A bulk whose grants in flight have become uncertain masses (R69). -/
def Bulk.restarted (b : Bulk) : Bulk := { b with components := b.components.map Component.loseGrant }

/-- The Bulk Table's part of a warm restart (R69): bulks in ascending slot order. -/
def State.restartBulks (s : State) : State :=
  (s.bulks.filter (fun e => e.2.components.any Component.granted)).foldl
    (fun t e => t.raise .chargeUncertain (some e.1))
    { s with bulks := s.bulks.mapVals (fun _ b => b.restarted) }

/-- The Mark Unit's part of a warm restart at one head (R131). -/
def State.restartHead (s : State) (a : Nat) : State :=
  (s.cutMark a .restart).modHead a (fun h => { h with interval := none })

/-- A verification record after a warm restart (R142). -/
def Verification.restarted (v : Verification) : Verification :=
  match v.state with
  | .at (.verified _) => { v with state := .at (.due (.running (minutes v.grace))) }
  | _ => v.testCut

/-- A station entry after a warm restart (R159): its expected kind and its configured interval are kept. -/
def Station.restarted (v : Station) : Station := { Station.cold with kind := v.kind, interval := v.interval }

/-- Every block resolves the work it had in flight (R26, R47, R69, R87, R111, R131, R142, R159). -/
def State.resolved (s : State) : State :=
  let t := laneNumbers.foldl State.restartLane s
  let t := addresses.foldl State.restartHead t.restartBulks
  addresses.foldl (fun t a => (t.setVerification a (t.verification a).restarted).setStation a (t.station a).restarted)
    { t with waits := [], cycle := none, linkOut := [] }

/-- A warm restart (R177); one whose marker holds PURGING finishes the purge first (R182). -/
def State.warmStart (s : State) (entered : EnteredFrom) (cause : RestartCause) : State :=
  let t := if entered = .purging then s.purged else s
  { (t.resolved.raise .restarted (some RestartKind.warm.code)) with
    part := .running
    purgeTimer := none
    noticesAtPurge := 0
    marker := none
    restartKind := .warm
    restartCause := cause
    purgeFinished := decide (entered = .purging)
    buffer := .empty
    sdo := [] }

/-- A start (R177): cold when the marker is invalid, warm when it is valid. -/
def State.start (s : State) (cause : RestartCause) : State :=
  match s.marker with
  | none => s.coldStart cause
  | some entered => s.warmStart entered cause

/-- PWRGOOD_RISE (R175, R177): it begins a start while RESET is not asserted. -/
def pwrgoodRise (s : State) : State :=
  if s.pwrgood then s
  else
    let t := { s with pwrgood := true }
    if s.part = .retain ∧ !s.resetAsserted then t.start .power else t

/-- RESET_RELEASE (R175, R177): it begins a start while PWRGOOD is high. -/
def resetRelease (s : State) : State :=
  if !s.resetAsserted then s
  else
    let t := { s with resetAsserted := false }
    if s.part = .retain ∧ s.pwrgood then t.start .reset else t

def execPurgeComplete (s : State) : Host.Outcome State Fault Refusal := .next (purgeComplete s)
def execPwrgoodFall (s : State) : Host.Outcome State Fault Refusal := .next (pwrgoodFall s)
def execResetAssert (s : State) : Host.Outcome State Fault Refusal := .next (resetAssert s)
def execPwrgoodRise (s : State) : Host.Outcome State Fault Refusal := .next (pwrgoodRise s)
def execResetRelease (s : State) : Host.Outcome State Fault Refusal := .next (resetRelease s)
def execVbakBelowHoldingLevel (s : State) : Host.Outcome State Fault Refusal := .next (vbakBelow s)
def execSupplyFailsWithoutPwrgoodFall (s : State) : Host.Outcome State Fault Refusal := .next (supplyFails s)

end Sys2Proof.Machine
end

