-- ==== Sys2Proof/Machine/Stations.lean ====
section
/-! DEFINITION. The station commands SET_STATION and READ_STATION (section 8.7). -/

namespace Sys2Proof.Machine

/-- A mapped lane names the station as its scale or its stencil station. -/
def Lane.names (l : Lane) (a : Nat) : Bool :=
  l.scale == a || match l.target with
    | .lot _ stencil => stencil == a
    | .hold => false

/-- A component of the bulk names the station. -/
def Bulk.names (b : Bulk) (a : Nat) : Bool := b.components.any (fun c => c.bin == a)

/-- A verification record whose station's expected kind has changed (R140): its settings are kept. -/
def Verification.kindChanged (v : Verification) : Verification :=
  { v with state := .at .unverified, abilities := none, lastTest := none }

/-- The head of a station whose expected kind has changed (R156); its queue is empty. -/
def Head.kindChanged (h : Head) : Head :=
  { h with state := .idle, oneMark := false, message := none, interval := none, reply := none }

/-- The station entry after SET_STATION (R156). -/
def Station.configured (v : Station) (kind : StationKind) (interval : Nat) : Station :=
  { v with
    kind := kind
    interval := interval
    abilities := if v.kind = kind then v.abilities else none
    join := if v.join = .refused then .absent else v.join
    silence := if v.join = .refused then 0 else v.silence
    answers := if v.join = .refused then [] else v.answers }

/-- SET_STATION (R156). -/
def setStation (p : SetStationParams) (s : State) : State × Reply :=
  let a := p.station
  let v := s.station a
  let kind := pageKind p.kind
  checked s [
    (isAddress a, .noSuch),
    (p.kind ≤ 3 && p.interval ≤ 10000, .badValue),
    (v.join != .active, .badState),
    (s.lanes.all (fun e => !e.2.names a), .badState),
    (s.bulks.all (fun e => !e.2.names a), .badState),
    ((s.head a).queue == [], .badState)]
    (let t := s.setStation a (v.configured kind p.interval)
     let t := if v.kind = kind then t
       else (t.setVerification a (s.verification a).kindChanged).setHead a (s.head a).kindChanged
     okay t (u1 (t.station a).join.code))

/-- READ_STATION (R157): the counters and LOST_SINCE_READ are cleared in the update of the snapshot. -/
def readStation (a : Nat) (s : State) : State × Reply :=
  checked s [(isAddress a, .noSuch)]
    (okay (s.modStation a (fun v =>
      { v with lostSinceRead := false, parityErrors := 0, addressErrors := 0, busyAnswers := 0, losses := 0 }))
      (s.stationData a))

def execSetStation (s : State) : Host.Outcome State Fault Refusal :=
  .next (takeCommand codeSetStation readSetStation false setStation s)
def execReadStation (s : State) : Host.Outcome State Fault Refusal :=
  .next (takeCommand codeReadStation readOne false readStation s)

end Sys2Proof.Machine
end

