-- ==== Sys2Proof/Machine/TareClasses.lean ====
section
/-! DEFINITION. The tare class commands SET_TARE_CLASS and READ_TARE_CLASS (section 1.2). -/

namespace Sys2Proof.Machine

/-- The window of SET_TARE_CLASS lies in its limits, or none is given (R2 check 2). -/
def windowOk : Option (Option (Nat × Nat)) → Bool
  | none => false
  | some none => true
  | some (some (lo, hi)) => 1 ≤ lo && hi ≤ 20000 && lo ≤ hi

/-- SET_TARE_CLASS (R2). -/
def setTareClass (p : TareClassParams) (s : State) : State × Reply :=
  checked s [
    (p.number ≤ 7, .noSuch),
    (1 ≤ p.nominal && p.nominal ≤ 20000 && p.spread ≤ 5000 && windowOk p.window, .badValue),
    (!s.classLocked p.number, .locked)]
    (okay (s.setClass p.number (some { nominal := p.nominal, window := p.window.getD none, spread := p.spread })) [])

/-- READ_TARE_CLASS (R3). -/
def readTareClass (k : Nat) (s : State) : State × Reply :=
  checked s [(k ≤ 7, .noSuch)] (okay s (s.classData k))

def execSetTareClass (s : State) : Host.Outcome State Fault Refusal :=
  .next (takeCommand codeSetTareClass readSetTareClass false setTareClass s)
def execReadTareClass (s : State) : Host.Outcome State Fault Refusal :=
  .next (takeCommand codeReadTareClass readOne false readTareClass s)

end Sys2Proof.Machine
end

