-- ==== Sys2Proof/Machine/Weighing.lean ====
section
/-! DEFINITION. The Weighing Unit (chapter 5): the gates of a gross call, its outcome, the room it needs, and what
taking it changes; and the tare call. -/

namespace Sys2Proof.Machine

/-! ## Gates (section 5.2) -/

/-- The verification gate (R91, R110). -/
def verificationGate (v : VerifyState) : Option AnswerCode :=
  match v with
  | .testing _ _ _ => some .testing
  | .at .unverified => some .notVerified
  | .at .suspended => some .notVerified
  | .at (.verified _) => none
  | .at (.due _) => none

/-- The reading screen (R93). -/
def screen (r : Reading) (capacity : Nat) : Option AnswerCode :=
  if !r.stable then some .unstable
  else if r.overload ∨ capacity < r.grams then some .overCapacity
  else if r.underload then some .underload
  else none

/-- The tare a lane supplies for a new chest (R75, R95): none in INDIVIDUAL mode with no pending tare. -/
def State.supplyTare (s : State) (l : Lane) : Option Nat :=
  match l.tareMode with
  | .nominal => some (s.classD l.tareClass).nominal
  | .individual => l.pendingTare

/-! ## Outcomes (section 5.4) -/

/-- The working values of a call that passes the gates: its lane and scale, G, T with its source, d and N (R94, R95). -/
structure Weighed where
  lane : Nat
  scale : Nat
  gross : Nat
  tare : Nat
  source : TareSource
  division : Nat
  net : Int
  deriving DecidableEq, Repr

/-- One outcome of a gross call. `chest` is the lane's tentative chest, for a reweigh. -/
inductive GrossOutcome where
  | accept (chest : Option Nat) (lot stencil recNet : Nat)
  | firstFail (lot : Nat) (reason : FailReason)
  | secondFail (chest lot : Nat)
  | balance (chest : Option Nat) (lot recNet : Nat)
  | unassigned
  deriving DecidableEq, Repr

/-- What an evaluation of a gross call finds: an answer of section 5.2, or an outcome. -/
inductive GrossDecision where
  | answer (code : AnswerCode)
  | outcome (w : Weighed) (o : GrossOutcome)
  deriving DecidableEq, Repr

/-- The outcome on a lot lane, from the two tests (section 5.4). -/
def State.lotOutcome (s : State) (k stencil : Nat) (chest : Option Nat) (net : Int) (d : Nat) : GrossOutcome :=
  let l := s.lotD k
  match acceptanceTest l net d with
  | .fail reason => match chest with
    | none => .firstFail k reason
    | some id => .secondFail id k
  | .pass recNet =>
    if (s.bulkD l.bulk).balances recNet then .accept chest k stencil recNet else .balance chest k recNet

/-- The working values with a tare (R94). -/
def weigh (n a r d tare : Nat) (source : TareSource) : Weighed :=
  { lane := n, scale := a, gross := r / d * d, tare := tare, source := source, division := d
    net := (r / d * d : Nat) - (tare : Int) }

/-- The decision past the screen: netting and the tests (R94 to R98). -/
def State.netAndTest (s : State) (a n : Nat) (l : Lane) (r : Nat) : GrossDecision :=
  let d := (s.station a).division
  match l.target, l.tentative with
  | .lot k stencil, some id =>
    let c := s.chestD id
    let w := weigh n a r d c.tare c.tareSource
    .outcome w (s.lotOutcome k stencil (some id) w.net d)
  | .lot k stencil, none => match s.supplyTare l with
    | none => .answer .noTare
    | some tare =>
      let w := weigh n a r d tare l.tareMode
      .outcome w (s.lotOutcome k stencil none w.net d)
  | .hold, _ => match s.supplyTare l with
    | none => .answer .noTare
    | some tare => .outcome (weigh n a r d tare l.tareMode) .unassigned

/-- The decision on a gross call: the gates in their order, then the outcome (section 5.2). -/
def State.decideGross (s : State) (a : Nat) (r : Reading) : GrossDecision :=
  match verificationGate (s.verification a).state with
  | some code => .answer code
  | none => match s.laneOf a with
    | none => .answer .noLane
    | some (n, l) =>
      if l.state.isHeld then .answer .laneHeld
      else match screen r (s.station a).capacity with
        | some code => .answer code
        | none => s.netAndTest a n l r.grams

/-! ## Room (section 5.5) -/

/-- The rooms an outcome needs (R106): lot, queue of a head, pool. -/
def GrossOutcome.needs : GrossOutcome → Option Nat × Option Nat × Bool
  | .accept none k stencil _ => (some k, some stencil, false)
  | .accept (some _) _ stencil _ => (none, some stencil, false)
  | .firstFail k _ => (some k, none, false)
  | .secondFail _ _ => (none, none, true)
  | .balance none k _ => (some k, none, true)
  | .balance (some _) _ _ => (none, none, true)
  | .unassigned => (none, none, true)

/-- The first kind of room lacking, in the order LOT, QUEUE, POOL; NONE when there is room of every kind (R106). -/
def State.lacking (s : State) (o : GrossOutcome) : WaitKind :=
  let need := o.needs
  if need.1.any (fun k => !(s.lotD k).room) then .lot
  else if need.2.1.any (fun a => !s.queueRoom a) then .queue
  else if need.2.2 && !s.poolRoom then .pool
  else .none

/-- The call is left waiting with a wait kind (R106, R107). -/
def State.leaveWaiting (s : State) (a n : Nat) (kind : WaitKind) : State :=
  let before := s.wait a
  let t := s.setWait a kind
  if kind = .pool ∧ before ≠ .pool then (t.holdCause n .holdFull true).raise .holdFull (some n) else t

/-! ## Taking a call (R100 to R105) -/

/-- A new chest's record with the reading fields of a call (R32, R100); its place is written by the outcome. -/
def Weighed.newChest (w : Weighed) : Chest :=
  { Chest.blank with
    lane := w.lane, scale := w.scale, gross := w.gross, tare := w.tare, tareSource := w.source
    division := w.division, net := w.net }

/-- The tentative chest's record with its reading replaced at the reweigh (R102). -/
def Weighed.reweighed (w : Weighed) (c : Chest) : Chest :=
  { c with gross := w.gross, net := w.net, division := w.division, reweighed := true }

/-- The pending tare is consumed by a new chest (R95). -/
def State.consumeTare (s : State) (n : Nat) : State := s.modLane n (fun l => { l with pendingTare := none })

/-- The lane no longer names a tentative chest. -/
def State.clearTentative (s : State) (n : Nat) : State := s.modLane n (fun l => { l with tentative := none })

/-- The record that an outcome writes, and what the lane gives up for it: a new record and the lane's pending tare, or
the lane's tentative chest. -/
def State.chestFor (s : State) (w : Weighed) (chest : Option Nat) (fresh : Nat) : Nat × Chest × State :=
  match chest with
  | none => (fresh, w.newChest, s.consumeTare w.lane)
  | some id => (id, w.reweighed (s.chestD id), s.clearTentative w.lane)

/-- The one-shot flag fires (R79): it is cleared and the lane takes the hold cause ONE_DONE. -/
def State.fireOneShot (s : State) (n : Nat) : State :=
  if s.laneIs n (fun l => l.oneShot) then
    (s.modLane n (fun l => { l with oneShot := false })).holdCause n .oneDone true
  else s

/-- The lane's part at the end of an acceptance: LANE_WATCH (R78), then the fill, which unmaps the lane last of all
(R10), or else the one-shot (R79) and the end of a pending hold (R80). -/
def State.endAcceptance (s : State) (n k : Nat) : State :=
  let t := if s.laneIs n (fun l => l.watch) then s.raise .laneWatch (some n) else s
  if t.lotIs k (fun l => l.accepted == l.planned) then t.fillIfFull k
  else (t.fireOneShot n).settleLane n

/-- Every change of an outcome but the answer and the emptying of the slot, which come first (R100 to R105). `fresh` is
the record that a new chest takes. -/
def State.takeOutcome (s : State) (w : Weighed) (o : GrossOutcome) (fresh : Nat) : State :=
  let n := w.lane
  match o with
  | .accept chest k stencil recNet =>
    let (id, c, t) := s.chestFor w chest fresh
    (t.acceptChest id c k stencil recNet chest.isSome).endAcceptance n k
  | .firstFail k reason =>
    let t := (s.consumeTare n).setChest fresh (some { w.newChest with place := .tentative k, failReason := some reason })
    (t.modLot k (fun l => { l with tentative := l.tentative + 1 })).modLane n
      (fun l => { l with tentative := some fresh })
  | .secondFail id k =>
    let t := (s.clearTentative n).holdChest id (w.reweighed (s.chestD id)) .secondFail (some k)
    ((t.modLot k Lot.lessTentative).raise .chestHeld (some n)).settleLane n
  | .balance chest k recNet =>
    let (id, c, t) := s.chestFor w chest fresh
    let t := t.holdChest id { c with recNet := some recNet } .balance (some k)
    let t := if chest.isSome then t.modLot k Lot.lessTentative else t
    ((t.raise .balance (some n)).holdCause n .balance true).settleLane n
  | .unassigned =>
    let t := (s.consumeTare n).holdChest fresh w.newChest .unassigned none
    ((t.raise .chestHeld (some n)).fireOneShot n).settleLane n

/-- The answer of an outcome and its value (R99). -/
def State.outcomeAnswer (s : State) : GrossOutcome → AnswerCode × Nat
  | .accept _ k _ _ => (.accepted, (s.lotD k).accepted + 1)
  | .firstFail _ reason => (.reweigh, reason.code)
  | .secondFail _ _ => (.held, HoldReason.secondFail.code)
  | .balance _ _ _ => (.held, HoldReason.balance.code)
  | .unassigned => (.held, HoldReason.unassigned.code)

/-- The outcome creates a chest (R29). -/
def GrossOutcome.creates : GrossOutcome → Bool
  | .accept none _ _ _ => true
  | .firstFail _ _ => true
  | .balance none _ _ => true
  | .unassigned => true
  | _ => false

/-- The evaluation of a gross call (R90). An answer of section 5.2 ends a wait, and with it the lane's work in flight. -/
def State.evaluateGross (s : State) (a : Nat) (r : Reading) : Host.Outcome State Fault Refusal :=
  match s.decideGross a r with
  | .answer code =>
    let t := s.answerCall a code 0
    .next (match s.laneOf a with
      | some (n, _) => t.settleLane n
      | none => t)
  | .outcome w o =>
    if s.lacking o = .none then
      if o.creates ∧ s.freeRecord = none then .fault .noFreeRecord
      else
        let x := s.outcomeAnswer o
        .next ((s.answerCall a x.1 x.2).takeOutcome w o (s.freeRecord.getD 0))
    else .next (s.leaveWaiting a w.lane (s.lacking o))

/-- The gross reading in a station's slot, while the Weighing Unit evaluates calls (R89, R90). -/
def State.grossCall (s : State) (a : Nat) : Option Reading :=
  if s.part = .running ∧ isAddress a then
    match (s.station a).slot with
    | some (.gross r) => some r
    | _ => none
  else none

/-- CALL_GROSS (R90). -/
def callGross (a : Nat) (s : State) : Host.Outcome State Fault Refusal :=
  match s.grossCall a with
  | some r => s.evaluateGross a r
  | none => .next s

/-! ## The tare call (R110, R76) -/

/-- The answer to a tare call, its value, and the pending tare it leaves in the lane `n` if it is one of gate 5 that
writes it. -/
structure TareDecision where
  code : AnswerCode
  value : Nat
  lane : Option Nat
  deriving DecidableEq, Repr

/-- An answer that changes nothing and carries 0. -/
def TareDecision.plain (code : AnswerCode) : TareDecision := { code := code, value := 0, lane := none }

/-- The window test (R76). A class without a window has none that a reading can lie in. -/
def tareInWindow (c : TareClass) (tare : Nat) : Bool :=
  match c.window with
  | some (lo, hi) => lo ≤ tare && tare ≤ hi
  | none => false

/-- The gates of a tare call in their order (R110). -/
def State.decideTare (s : State) (a : Nat) (r : Reading) : TareDecision :=
  match verificationGate (s.verification a).state with
  | some code => .plain code
  | none => match s.laneOf a with
    | none => .plain .noLane
    | some (n, l) =>
      if l.state ≠ .running then .plain .laneHeld
      else if l.tareMode = .nominal then .plain .notWanted
      else match screen r (s.station a).capacity with
        | some code => .plain code
        | none =>
          if !tareInWindow (s.classD l.tareClass) r.grams then .plain .tareOutOfWindow
          else
            { code := if l.pendingTare.isSome then .tareReplaced else .tareSet
              value := r.grams
              lane := some n }

/-- The taking of a tare call. -/
def State.takeTare (s : State) (a : Nat) (r : Reading) : State :=
  let x := s.decideTare a r
  let t := s.answerCall a x.code x.value
  match x.lane with
  | some n => t.modLane n (fun l => { l with pendingTare := some r.grams })
  | none => t

/-- CALL_TARE (R110). -/
def callTare (a : Nat) (s : State) : State :=
  takeFrom a (fun c => match c with
    | .tare r => some (s.takeTare a r)
    | _ => none) s

def execCallGross (a : Nat) (s : State) : Host.Outcome State Fault Refusal := callGross a s
def execCallTare (a : Nat) (s : State) : Host.Outcome State Fault Refusal := .next (callTare a s)

end Sys2Proof.Machine
end

