-- ==== Sys2Proof/Machine/Verification.lean ====
section
/-! DEFINITION. The Scale Verification Unit's test reading and timers (sections 7.3 and 7.4): CALL_TEST, PERIOD_EXPIRY and
GRACE_EXPIRY. -/

namespace Sys2Proof.Machine

/-- |R − test mass| (R138). -/
def testDifference (r mass : Nat) : Nat := (r - mass) + (mass - r)

/-- A test reading of `r` grams is compared with the test mass (R138), on a scale of division `d` and capacity `cap`. -/
def Verification.compared (v : Verification) (r mass d cap : Nat) : Verification :=
  let difference := testDifference r mass
  let pass := decide (difference ≤ max d v.tolerance)
  { v with
    state := if pass then .at (.verified (minutes v.period)) else .at .suspended
    abilities := if pass then some (d, cap) else v.abilities
    lastTest := some { mass := mass, reading := r, difference := difference, pass := pass } }

/-- The comparison of a test reading (R138): the record, SCALE_SUSPENDED on a fail, the answer, and the TEST_END order. -/
def State.compareTest (s : State) (a r mass : Nat) : State :=
  let st := s.station a
  let v := (s.verification a).compared r mass st.division st.capacity
  let pass := decide (testDifference r mass ≤ max st.division (s.verification a).tolerance)
  let t := s.setVerification a v
  let t := if pass then t else t.raise .scaleSuspended (some a)
  let t := t.answerCall a (if pass then .testPass else .testFail) (min (testDifference r mass) 65535)
  t.modStation a (fun v => { v with order := some .testEnd })

/-- The taking of a test call: the first case of R138 that applies. R138 gives a value to TEST_PASS and TEST_FAIL alone;
the value 0 of NOT_TESTING, UNSTABLE, OVER_CAPACITY and UNDERLOAD is the model's reading (assumption 32). -/
def State.takeTest (s : State) (a : Nat) (r : Reading) : State :=
  match (s.verification a).state with
  | .testing _ mass true => match screen r (s.station a).capacity with
    | some code => s.answerCall a code 0
    | none => s.compareTest a r.grams mass
  | _ => s.answerCall a .notTesting 0

/-- CALL_TEST (R138). -/
def callTest (a : Nat) (s : State) : State :=
  takeFrom a (fun c => match c with
    | .test r => some (s.takeTest a r)
    | _ => none) s

/-- The period timer of a VERIFIED record has expired: it becomes DUE with its grace started (R135). -/
def Verification.periodOver (v : Verification) : Verification :=
  { v with state := .at (.due (.running (minutes v.grace))) }

/-- PERIOD_EXPIRY (R135). -/
def periodExpiry (a : Nat) (s : State) : State :=
  atStation a ((s.verification a).state == .at (.verified 0))
    ((s.setVerification a (s.verification a).periodOver).raise .verifyDue (some a)) s

/-- The update of a grace expiry, by the record's action (R136). A suspension ends the wait of a call of the scale, which
stays in its slot for its next evaluation (R109, assumption 13), and with it the lane's work in flight (R80). While the
part is PURGING too: that R109 governs there, and not the kept wait kind of R90 and R112, is the model's reading
(assumption 13). -/
def State.graceOver (s : State) (a : Nat) : State :=
  let v := s.verification a
  match v.action with
  | .warn => s.setVerification a { v with state := .at (.due .expired) }
  | .suspend =>
    let t := ((s.setVerification a { v with state := .at .suspended }).raise .scaleSuspended (some a)).setWait a .none
    match s.laneOf a with
    | some (n, _) => (t.holdCause n .scaleSuspended true).settleLane n
    | none => t

/-- GRACE_EXPIRY (R136). -/
def graceExpiry (a : Nat) (s : State) : State :=
  atStation a ((s.verification a).state == .at (.due (.running 0))) (s.graceOver a) s

def execCallTest (a : Nat) (s : State) : Host.Outcome State Fault Refusal := .next (callTest a s)
def execPeriodExpiry (a : Nat) (s : State) : Host.Outcome State Fault Refusal := .next (periodExpiry a s)
def execGraceExpiry (a : Nat) (s : State) : Host.Outcome State Fault Refusal := .next (graceExpiry a s)

end Sys2Proof.Machine
end

