-- ==== Sys2Proof/Machine/Dispatch.lean ====
section
/-! DEFINITION. One arm for each command, each one direct call of its meaning. -/

namespace Sys2Proof.Machine

def exec (i : Instr) (s : State) : Host.Outcome State Fault Refusal :=
  match i with
  | .setStation => Sys2Proof.Machine.execSetStation s
  | .readStation => Sys2Proof.Machine.execReadStation s
  | .setTareClass => Sys2Proof.Machine.execSetTareClass s
  | .readTareClass => Sys2Proof.Machine.execReadTareClass s
  | .openBulk => Sys2Proof.Machine.execOpenBulk s
  | .mixBulk => Sys2Proof.Machine.execMixBulk s
  | .settleCharge => Sys2Proof.Machine.execSettleCharge s
  | .spendBulk => Sys2Proof.Machine.execSpendBulk s
  | .freeBulk => Sys2Proof.Machine.execFreeBulk s
  | .readBulk => Sys2Proof.Machine.execReadBulk s
  | .openLot => Sys2Proof.Machine.execOpenLot s
  | .closeLot => Sys2Proof.Machine.execCloseLot s
  | .declareLot => Sys2Proof.Machine.execDeclareLot s
  | .retireLot => Sys2Proof.Machine.execRetireLot s
  | .drawSample => Sys2Proof.Machine.execDrawSample s
  | .readLot => Sys2Proof.Machine.execReadLot s
  | .readDeclaration => Sys2Proof.Machine.execReadDeclaration s
  | .mapLane => Sys2Proof.Machine.execMapLane s
  | .unmapLane => Sys2Proof.Machine.execUnmapLane s
  | .holdLane => Sys2Proof.Machine.execHoldLane s
  | .holdLaneForce => Sys2Proof.Machine.execHoldLaneForce s
  | .releaseLane => Sys2Proof.Machine.execReleaseLane s
  | .readLane => Sys2Proof.Machine.execReadLane s
  | .readChest => Sys2Proof.Machine.execReadChest s
  | .assignHeld => Sys2Proof.Machine.execAssignHeld s
  | .returnChest => Sys2Proof.Machine.execReturnChest s
  | .voidChest => Sys2Proof.Machine.execVoidChest s
  | .pauseHead => Sys2Proof.Machine.execPauseHead s
  | .resumeHead => Sys2Proof.Machine.execResumeHead s
  | .flushHead => Sys2Proof.Machine.execFlushHead s
  | .reprint => Sys2Proof.Machine.execReprint s
  | .readHead => Sys2Proof.Machine.execReadHead s
  | .setVerify => Sys2Proof.Machine.execSetVerify s
  | .verifyScale => Sys2Proof.Machine.execVerifyScale s
  | .cancelVerify => Sys2Proof.Machine.execCancelVerify s
  | .readNotices => Sys2Proof.Machine.execReadNotices s
  | .clearNotices => Sys2Proof.Machine.execClearNotices s
  | .setNoticeEnables => Sys2Proof.Machine.execSetNoticeEnables s
  | .readPart => Sys2Proof.Machine.execReadPart s
  | .purge => Sys2Proof.Machine.execPurge s
  | .unknownCommand => Sys2Proof.Machine.execUnknownCommand s
  | .commandWindowEnd bytes => Sys2Proof.Machine.execCommandWindowEnd bytes s
  | .readWindow n => Sys2Proof.Machine.execReadWindow n s
  | .linkCycle => Sys2Proof.Machine.execLinkCycle s
  | .inboundWord a w => Sys2Proof.Machine.execInboundWord a w s
  | .announceWindowExpiry a => Sys2Proof.Machine.execAnnounceWindowExpiry a s
  | .stationLost a => Sys2Proof.Machine.execStationLost a s
  | .rejoinInhibitExpiry a => Sys2Proof.Machine.execRejoinInhibitExpiry a s
  | .refusalExpiry a => Sys2Proof.Machine.execRefusalExpiry a s
  | .callGross a => Sys2Proof.Machine.execCallGross a s
  | .callTare a => Sys2Proof.Machine.execCallTare a s
  | .callTest a => Sys2Proof.Machine.execCallTest a s
  | .callCharge a => Sys2Proof.Machine.execCallCharge a s
  | .callDone a => Sys2Proof.Machine.execCallDone a s
  | .replyDone a => Sys2Proof.Machine.execReplyDone a s
  | .replyFault a => Sys2Proof.Machine.execReplyFault a s
  | .markTimeout a => Sys2Proof.Machine.execMarkTimeout a s
  | .intervalExpiry a => Sys2Proof.Machine.execIntervalExpiry a s
  | .periodExpiry a => Sys2Proof.Machine.execPeriodExpiry a s
  | .graceExpiry a => Sys2Proof.Machine.execGraceExpiry a s
  | .purgeComplete => Sys2Proof.Machine.execPurgeComplete s
  | .pwrgoodFall => Sys2Proof.Machine.execPwrgoodFall s
  | .resetAssert => Sys2Proof.Machine.execResetAssert s
  | .pwrgoodRise => Sys2Proof.Machine.execPwrgoodRise s
  | .resetRelease => Sys2Proof.Machine.execResetRelease s
  | .vbakBelowHoldingLevel => Sys2Proof.Machine.execVbakBelowHoldingLevel s
  | .supplyFailsWithoutPwrgoodFall => Sys2Proof.Machine.execSupplyFailsWithoutPwrgoodFall s

end Sys2Proof.Machine
end

