-- ==== Sys2Proof/Machine/Frames.lean ====
section
/-! DEFINITION. What the senders write: the parameters of each command (R183), the command frame (section 11.3) and the
inbound link words (section 11.2). The part does not use these; they say which bytes and words the readers of
Machine/Operands.lean are made for. -/

namespace Sys2Proof.Machine

/-- A command frame: the code, the parameter length and the parameters. -/
def commandFrame (code : Byte) (params : List Byte) : List Byte := code :: (u1 params.length ++ params)

/-- A text parameter: a length byte and the bytes. -/
def textParam (t : List Byte) : List Byte := u1 t.length ++ t

/-- A mass parameter of four bytes, two's complement. -/
def massParam (x : Int) : List Byte := be 4 (BitVec.ofInt 32 x).toNat

/-- An optional one-byte parameter: a presence byte, and the field only when it is 1. -/
def optionalParam (o : Option Nat) : List Byte :=
  match o with
  | some x => u1 1 ++ u1 x
  | none => u1 0

def SetStationParams.bytes (p : SetStationParams) : List Byte := u1 p.station ++ u1 p.kind ++ u2 p.interval

def TareClassParams.bytes (p : TareClassParams) : List Byte :=
  u1 p.number ++ u2 p.nominal ++ u2 p.spread ++
    match p.window.getD none with
    | some (lo, hi) => u1 1 ++ u2 lo ++ u2 hi
    | none => u1 0

def ComponentParams.bytes (c : ComponentParams) : List Byte :=
  u1 c.bin ++ textParam c.source ++ u2 c.minShare ++ u2 c.maxShare

def OpenBulkParams.bytes (p : OpenBulkParams) : List Byte :=
  u1 p.slot ++ u2 p.number ++ textParam p.grade ++ massParam p.planned ++ u2 p.allowance ++ u1 p.components.length ++
    p.components.flatMap ComponentParams.bytes

def SettleParams.bytes (p : SettleParams) : List Byte := u1 p.slot ++ u1 p.component ++ massParam p.mass

def OpenLotParams.bytes (p : OpenLotParams) : List Byte :=
  u1 p.slot ++ u4 p.invoice ++ textParam p.garden ++ textParam p.grade ++ u1 p.season ++ u1 p.bulk ++ u1 p.tareClass ++
    massParam p.declNet ++ u2 p.step ++ u2 p.margin ++ u1 p.planned ++ u2 p.sampleLimit ++ u1 p.overmark

def SampleParams.bytes (p : SampleParams) : List Byte := u1 p.slot ++ u1 p.serial ++ u2 p.mass ++ u1 p.head

def MapLaneParams.bytes (p : MapLaneParams) : List Byte :=
  u1 p.lane ++ u1 p.target ++ u1 p.scale ++ optionalParam (p.stencil.getD none) ++ u1 p.tareMode ++
    optionalParam (p.tareClass.getD none) ++ u1 p.watch

def ReleaseParams.bytes (p : ReleaseParams) : List Byte := u1 p.lane ++ u1 p.one ++ u1 p.watch

/-- READ_LOT (`width` 4) and READ_BULK (`width` 2). -/
def Named.bytes (width : Nat) : Named → List Byte
  | .slot n => u1 0 ++ u1 n
  | .number n => u1 1 ++ be width n
  | .bad => u1 2

def ChestName.bytes : ChestName → List Byte
  | .id n => u1 0 ++ u2 n
  | .serial slot n => u1 1 ++ u1 slot ++ u1 n
  | .position n => u1 2 ++ u1 n
  | .bad => u1 3

def AssignParams.bytes (p : AssignParams) : List Byte := u2 p.chest ++ u1 p.slot ++ u1 p.head

def ReprintParams.bytes (p : ReprintParams) : List Byte := u2 p.chest ++ u1 p.head

def SetVerifyParams.bytes (p : SetVerifyParams) : List Byte :=
  u1 p.station ++ u2 p.period ++ u1 p.grace ++ u1 p.action ++ u2 p.tolerance

def VerifyParams.bytes (p : VerifyParams) : List Byte := u1 p.station ++ massParam p.mass

/-! ## Inbound link words -/

/-- The payload of a reading. -/
def Reading.payload (r : Reading) : Nat :=
  (if r.stable then 2 ^ 22 else 0) + (if r.overload then 2 ^ 21 else 0) + (if r.underload then 2 ^ 20 else 0) +
    r.grams % 2 ^ 18

/-- The payload of a call's word. -/
def Call.payload : Call → Nat
  | .gross r => r.payload
  | .tare r => r.payload
  | .test r => r.payload
  | .charge q => q % 2 ^ 19
  | .done m => m % 2 ^ 19
  | .replyDone => 0
  | .replyFault c => 2 ^ 22 + c.code

def Page.payload : Page → Nat
  | .a kind => kind.code
  | .b v => 2 ^ 21 + v % 2 ^ 19
  | .c v => 2 * 2 ^ 21 + v % 2 ^ 19

/-- The word that a station at `address` sends; `unknown` is a word of kind 8. -/
def Inbound.word (address : Nat) : Inbound → LinkWord
  | .present => linkWord address 0 0
  | .announce page => linkWord address 1 page.payload
  | .call c => linkWord address c.kindCode c.payload
  | .unknown => linkWord address 8 0

end Sys2Proof.Machine
end

