-- ==== Sys2Proof/Safety.lean ====
section
/-! DEFINITION. The terms that statements about the part are made in: a latched frame, a response, the rows of the host
commands, and the laws that every step keeps. -/

namespace Sys2Proof.Machine

/-! ## Commands and responses -/

/-- A whole frame of the command `code` is latched and not yet taken, the port works, and `read` reads the frame's
parameters as `p` (R161, R162). -/
def State.latches {α : Type} (s : State) (code : Byte) (read : List Byte → Option α) (p : α) : Prop :=
  s.part ≠ .retain ∧
    ∃ params, params.length ≤ 100 ∧ s.buffer = .preparing (commandFrame code params) ∧ read params = some p

/-- A response held and not yet read: the code, the status, the data length and the data (section 11.3). -/
def answer (code status : Byte) (data : List Byte) : Buffer :=
  .ready (code :: status :: BitVec.ofNat 8 data.length :: data)

/-- The state with a refusal of the command `code` in the response buffer: a status and no data (R164). -/
def State.refused (s : State) (code status : Byte) : State := { s with buffer := answer code status [] }

/-- An option or flag in one byte (R183). -/
def bit (b : Bool) : Byte := if b then 1 else 0

/-- A figure in one byte (R183). -/
def byte (n : Nat) : Byte := BitVec.ofNat 8 n

/-- The rows of the host commands but HOLD_LANE_FORCE, each with its code (section 11.3) and whether the bytes are of a
length that the command takes. HOLD_LANE_FORCE shares the code of HOLD_LANE and takes its frames with the option on. -/
def hostCommands : List (Instr × Byte × (List Byte → Bool)) := [
  (.setStation, 0x10, fun ps => (readSetStation ps).isSome), (.readStation, 0x11, fun ps => (readOne ps).isSome),
  (.setTareClass, 0x18, fun ps => (readSetTareClass ps).isSome), (.readTareClass, 0x19, fun ps => (readOne ps).isSome),
  (.openBulk, 0x20, fun ps => (readOpenBulk ps).isSome), (.mixBulk, 0x21, fun ps => (readPair ps).isSome),
  (.settleCharge, 0x22, fun ps => (readSettle ps).isSome), (.spendBulk, 0x23, fun ps => (readOne ps).isSome),
  (.freeBulk, 0x24, fun ps => (readOne ps).isSome), (.readBulk, 0x25, fun ps => (readNamed 2 ps).isSome),
  (.openLot, 0x30, fun ps => (readOpenLot ps).isSome), (.closeLot, 0x31, fun ps => (readOne ps).isSome),
  (.declareLot, 0x32, fun ps => (readOne ps).isSome), (.retireLot, 0x33, fun ps => (readOne ps).isSome),
  (.drawSample, 0x34, fun ps => (readSample ps).isSome), (.readLot, 0x35, fun ps => (readNamed 4 ps).isSome),
  (.readDeclaration, 0x36, fun ps => (readOne ps).isSome), (.mapLane, 0x40, fun ps => (readMapLane ps).isSome),
  (.unmapLane, 0x41, fun ps => (readOne ps).isSome), (.holdLane, 0x42, fun ps => (readPair ps).isSome),
  (.releaseLane, 0x43, fun ps => (readRelease ps).isSome), (.readLane, 0x44, fun ps => (readOne ps).isSome),
  (.readChest, 0x50, fun ps => (readChestName ps).isSome), (.assignHeld, 0x51, fun ps => (readAssign ps).isSome),
  (.returnChest, 0x52, fun ps => (readChestId ps).isSome), (.voidChest, 0x53, fun ps => (readChestId ps).isSome),
  (.pauseHead, 0x60, fun ps => (readOne ps).isSome), (.resumeHead, 0x61, fun ps => (readPair ps).isSome),
  (.flushHead, 0x62, fun ps => (readOne ps).isSome), (.reprint, 0x63, fun ps => (readReprint ps).isSome),
  (.readHead, 0x64, fun ps => (readOne ps).isSome), (.setVerify, 0x70, fun ps => (readSetVerify ps).isSome),
  (.verifyScale, 0x71, fun ps => (readVerify ps).isSome), (.cancelVerify, 0x72, fun ps => (readOne ps).isSome),
  (.readNotices, 0x78, fun ps => (readNone ps).isSome), (.clearNotices, 0x79, fun ps => (readNoticeSet ps).isSome),
  (.setNoticeEnables, 0x7A, fun ps => (readNoticeSet ps).isSome), (.readPart, 0x7E, fun ps => (readNone ps).isSome),
  (.purge, 0x7F, fun ps => (readNone ps).isSome)]

/-! ## Records found by what they name -/

/-- Lane `n`, with the record `l`, is the mapped lane that names the scale `a`. -/
def State.serves (s : State) (n : Nat) (l : Lane) (a : Nat) : Prop := s.lane? n = some l ∧ s.laneOf a = some (n, l)

/-- Component `i` (from 0), `c`, of the CHARGING bulk `b` in slot `k` is the one that names the bin `a`. -/
def State.charges (s : State) (k : Nat) (b : Bulk) (i : Nat) (c : Component) (a : Nat) : Prop :=
  s.bulk? k = some b ∧ s.bulkOf a = some (k, b) ∧ b.components[i]? = some c ∧ c.bin = a ∧
    ∀ j, j < i → ∀ e, b.components[j]? = some e → e.bin ≠ a

/-- The station's entry after its call is taken and answered with `x` (R151, R153). -/
def Station.answered (v : Station) (x : Answer) : Station :=
  { v with slot := none, answers := placeResultIn v.answers x }

/-- The station's entry after one more cycle in the window, the inhibit or the refusal, whose last one makes the station
ABSENT (R147, R149, R150; assumption 15). -/
def Station.afterCycle (v : Station) : Station :=
  match v.join with
  | .announcing w =>
    if w < 249 then { v with join := .announcing (w + 1) } else { v with join := .absent, pages := none }
  | .lost i => if i < 499 then { v with join := .lost (i + 1) } else { v with join := .absent, silence := 0 }
  | .refused => if v.silence < 500 then v else { v with join := .absent, silence := 0, answers := [] }
  | .absent => v
  | .active => v

/-- The station's entry after a slot in which no admitted word came (R145, R146). -/
def Station.afterSilence (v : Station) : Station :=
  { v with silence := min (v.silence + 1) 500, slotOpen := false }.afterCycle

/-- From `s` to `t` the call in the slot of `a` is taken and answered with `x`, and no other station's entry or wait
changes (R151, R153). -/
def State.answersCall (s t : State) (a : Nat) (x : Answer) : Prop :=
  t.station a = (s.station a).answered x ∧ t.wait a = .none ∧
    ∀ b, b ≠ a → t.station b = s.station b ∧ t.wait b = s.wait b

/-- From `s` to `t` the kind `k` is raised with source `x` when `c` holds, and no other kind changes (R167). -/
def State.raisesIf (s t : State) (c : Prop) [Decidable c] (k : NoticeKind) (x : Nat) : Prop :=
  ∀ j, t.notice j = if j = k ∧ c then (s.notice j).raised (some x) else s.notice j

/-- From `s` to `t` a charge of `m` grams is counted against `g` grams in component `i` (from 0), `c`, of the bulk `b` in
slot `k`, and an overshoot sets its flag and raises its notice (R55, R56). -/
def State.countsCharge (s t : State) (k : Nat) (b : Bulk) (i : Nat) (c : Component) (m g : Nat) : Prop :=
  t.bulk? k = some { b with
    components := b.components.set i
      { c with charged := c.charged + m, count := min (c.count + 1) 65535, claim := .none }
    charged := b.charged + m
    overshoot := b.overshoot || decide (g + g * 20 / 1000 < m) } ∧
  (∀ j, j ≠ k → t.bulk? j = s.bulk? j) ∧ s.raisesIf t (g + g * 20 / 1000 < m) .overshoot k

/-- A notice kind raised for each of the sources, in their order (R167). -/
def Notice.raisedFor (n : Notice) (sources : List Nat) : Notice := sources.foldl (fun m x => m.raised (some x)) n

/-- From `s` to `t` the kind `k` is raised once for each of the records `l`, which its rule takes in no stated order; the
last source is one of them, and which one is left open (R167, assumption 16). -/
def State.raisesAmong (s t : State) (k : NoticeKind) (l : List Nat) : Prop :=
  let n := s.notice k
  (l = [] → t.notice k = n) ∧
  (l ≠ [] → ∃ x ∈ l, t.notice k =
    { n with pending := true, repeated := n.repeated || n.pending || decide (1 < l.length), source := some x })

/-- A head whose queue a job has joined at its end (R114). -/
def Head.joined (h : Head) (j : Job) : Head :=
  { h with queue := h.queue ++ [j], state := if h.state = .idle then .ready else h.state }

/-- A chest whose job has joined the queue of head `a` (R114). -/
def Chest.queuedAt (c : Chest) (kind : JobKind) (a : Nat) : Chest :=
  { c with mark := .queued, job := some kind, markHead := some a }

/-- Every accepted chest of lot `k` is MARKED (R12, R19). -/
def State.allMarked (s : State) (k : Nat) : Prop := ∀ e ∈ s.chests, e.2.inLot k = true → e.2.mark = .marked

/-- `n` bytes of `l` from offset `i`. -/
def bytesAt (l : List Byte) (i n : Nat) : List Byte := (l.drop i).take n

/-- The data `l` holds the bytes of each of the fields, given by offset, size and bytes (section 11.4). -/
def laidOut (l : List Byte) (fields : List (Nat × Nat × List Byte)) : Prop :=
  ∀ e ∈ fields, bytesAt l e.1 e.2.1 = e.2.2

/-- The number whose bits are the flags, the first of weight `w` (R183). -/
def weighted : Nat → List Bool → Nat
  | _, [] => 0
  | w, b :: bs => (if b then w else 0) + weighted (2 * w) bs

/-- A text of a response: its length, its characters, and zeros to its full width (R184). -/
def textField (width : Nat) (t : List Byte) : List Byte := byte t.length :: t ++ List.replicate (width - t.length) 0

/-- An optional figure of `n` bytes: a presence byte and the figure, zeros when absent (R183). -/
def figure (n : Nat) (o : Option Nat) : List Byte := bit o.isSome :: be n (o.getD 0)

/-- The 40 characters, by their link codes from 0 (R184). -/
def characters : List Byte :=
  (List.range 26).map (fun n => byte (65 + n)) ++ (List.range 10).map (fun n => byte (48 + n)) ++ [32, 45, 47, 46]

/-- The link codes of the characters of a text from `i` on, three to a word, the first in the high six bits; 63 stands past
its end (R184). The low 18 bits hold them (assumption 34). -/
def threeCodes (t : List Byte) (i : Nat) : Nat :=
  let six (k : Nat) : Nat := (t[k]?.map characters.idxOf).getD 63
  six i * 4096 + six (i + 1) * 64 + six (i + 2)

/-- The answers, by their codes from 0 (section 11.2). -/
def answerCodes : List AnswerCode :=
  [.pending, .busy, .wrongCall, .testing, .notVerified, .noLane, .laneHeld, .unstable, .overCapacity, .underload, .noTare,
   .accepted, .reweigh, .held, .notWanted, .tareOutOfWindow, .tareSet, .tareReplaced, .notTesting, .testPass, .testFail,
   .noBulk, .uncertain, .inFlight, .full, .chargeCounted, .markTaken, .noMark]

/-- The link word has odd parity and carries this address, kind and payload (section 11.2). -/
def carries (w : LinkWord) (a k p : Nat) : Prop :=
  oddParity w = true ∧ wordAddress w = a ∧ wordKind w = k ∧ wordPayload w = p

/-- The lane numbers of the lanes mapped to lot `k`. -/
def State.feeders (s : State) (k : Nat) : List Nat := laneNumbers.filter (fun n => s.laneIs n (fun l => l.feeds k))

/-- Scale `b` serves one of the lanes mapped to lot `k`. -/
def State.feedsFrom (s : State) (k b : Nat) : Bool := (s.feeders k).any (fun n => s.laneIs n (fun l => l.scale == b))

/-- The lot after it accepts a chest whose FIRST job joins a queue, its fill apart (R9). -/
def Lot.withChest (l : Lot) (c : Chest) (x : Nat) (wasTentative : Bool) : Lot :=
  { l with
    accepted := l.accepted + 1
    tentative := if wasTentative then l.tentative - 1 else l.tentative
    outstanding := l.outstanding + 1
    grossTotal := l.grossTotal + c.gross
    tareTotal := l.tareTotal + c.tare
    netTotal := l.netTotal + x
    minTare := if l.accepted = 0 then some c.tare else l.minTare.map (min c.tare)
    maxTare := if l.accepted = 0 then some c.tare else l.maxTare.map (max c.tare)
    reweighedCount := if c.reweighed then l.reweighedCount + 1 else l.reweighedCount }

/-- From `s` to `t` the chest `c` of record `id` is accepted into lot `k`, `l`, with recorded net `x` and a FIRST job on
head `a`; the lot fills when that brings its accepted count to the planned count (R9, R10, R33, R63, R114). -/
def State.accepts (s t : State) (id : Nat) (c : Chest) (k : Nat) (l : Lot) (a x : Nat) (wasTentative : Bool) : Prop :=
  t.chest? id = some
    ({ c with place := .accepted k (l.accepted + 1) l.bulk, recNet := some x, reprints := 0 }.queuedAt .first a) ∧
  (∀ j, j ≠ id → t.chest? j = s.chest? j) ∧
  (∀ j, t.bulk? j = if j = l.bulk then (s.bulk? j).map (fun b => { b with drawn := b.drawn + x }) else s.bulk? j) ∧
  (∀ b, t.head b = if b = a then (s.head a).joined { chest := id, kind := .first } else s.head b) ∧
  (∀ j, j ≠ k → t.lot? j = s.lot? j) ∧
  (l.accepted + 1 ≠ l.planned → t.lot? k = some (l.withChest c x wasTentative)) ∧
  (l.accepted + 1 = l.planned → t.lot? k = some { l.withChest c x wasTentative with
    state := .finishing
    cause := some .filled
    mappedLanes := l.mappedLanes - (s.feeders k).length })

/-- The lot after its last-serial chest, `c`, has left it; `rest` are the tares of those that remain (R14 to R16). -/
def Lot.withoutChest (l : Lot) (c : Chest) (x : Nat) (rest : List Nat) : Lot :=
  let edge := l.minTare = some c.tare ∨ l.maxTare = some c.tare
  { l with
    accepted := l.accepted - 1
    grossTotal := l.grossTotal - c.gross
    tareTotal := l.tareTotal - c.tare
    netTotal := l.netTotal - x
    reweighedCount := if c.reweighed then l.reweighedCount - 1 else l.reweighedCount
    minTare := if edge then rest.min? else l.minTare
    maxTare := if edge then rest.max? else l.maxTare
    state := if l.state = .finishing then .opened else l.state
    cause := if l.state = .finishing then none else l.cause }

/-- From `s` to `t` the last-serial chest `c`, of record `id` and recorded net `x`, leaves lot `k`, `l`, and gives `x`
back to bulk `b` (R14 to R16, R63). -/
def State.removes (s t : State) (id : Nat) (c : Chest) (k : Nat) (l : Lot) (b x : Nat) : Prop :=
  (∀ j, j ≠ k → t.lot? j = s.lot? j) ∧
  t.lot? k = some (l.withoutChest c x ((s.chests.filter (fun e => e.2.inLot k && e.1 != id)).map (fun e => e.2.tare))) ∧
  ∀ j, t.bulk? j = if j = b then (s.bulk? j).map (fun u => { u with drawn := u.drawn - x }) else s.bulk? j

/-- No chest has more than one job (R37). -/
def State.soleJobs (s : State) : Prop :=
  (∀ a, ((s.head a).queue.map Job.chest).Nodup) ∧
  ∀ a b, a ≠ b → ∀ j ∈ (s.head a).queue, ∀ i ∈ (s.head b).queue, i.chest ≠ j.chest

/-- From `s` to `t` the chests of the jobs `out` have left their queues with the status that a cancellation gives, and
every other chest is as it was (R82, R127). -/
def State.cancels (s t : State) (out : List Job) (spared : Option Nat) : Prop :=
  ∀ id, some id ≠ spared → t.chest? id = if id ∈ out.map Job.chest
    then (s.chest? id).map (fun c => { c with mark := if c.mark = .queued then .unmarked else c.mark, job := none })
    else s.chest? id

/-! ## Gross calls -/

/-- From `s` to `t` each kind `j` with `f j = some x` is raised with source `x`, and no other kind changes (R167). -/
def State.raisesAs (s t : State) (f : NoticeKind → Option Nat) : Prop :=
  ∀ j, t.notice j = match f j with
    | some x => (s.notice j).raised (some x)
    | none => s.notice j

/-- The lane once its last work in flight has ended: from HOLD_PENDING it becomes HELD with its reason (R80). -/
def Lane.settled (l : Lane) : Lane :=
  match l.state with
  | .holdPending r => { l with state := .held r }
  | _ => l

/-- From `s` to `t` lane `n` becomes `l` and no other lane changes. -/
def State.laneBecomes (s t : State) (n : Nat) (l : Lane) : Prop := ∀ m, t.lane? m = if m = n then some l else s.lane? m

/-- From `s` to `t` the gross call in the slot of `a` is answered with `code` and changes nothing, but that it ends the
wait of a HOLD_PENDING lane that holds no tentative chest (R80, R90). -/
def State.answersGross (s t : State) (a : Nat) (code : AnswerCode) : Prop :=
  s.answersCall t a (.answer code 0) ∧
  ((s.laneOf a = none ∨ ∃ n l, s.serves n l a ∧ (l.tentative ≠ none ∨ ∀ r, l.state ≠ .holdPending r)) →
    t = { s with stations := t.stations, waits := t.waits }) ∧
  ∀ n l r, s.serves n l a → l.tentative = none → l.state = .holdPending r →
    t = { s with stations := t.stations, waits := t.waits, lanes := t.lanes, notices := t.notices } ∧
    s.laneBecomes t n { l with state := .held r } ∧
    s.raisesAs t (fun j => if j = .laneHeld then some n else none)

/-- A gross call with the reading `r` stands in the slot of the ACTIVE scale `a`, and the part takes calls. -/
def State.hasGross (s : State) (a : Nat) (r : Reading) : Prop :=
  s.part = .running ∧ 1 ≤ a ∧ a ≤ 14 ∧ (s.station a).join = .active ∧ (s.station a).slot = some (.gross r)

/-- The reading passes the screen of a scale of capacity `top` (R93). -/
def Reading.passes (r : Reading) (top : Nat) : Prop :=
  r.stable = true ∧ r.overload = false ∧ r.grams ≤ top ∧ r.underload = false

/-- The call passes the gates of section 5.2 before the tare: the scale is VERIFIED or DUE, lane `n`, `l`, names it and is
RUNNING or HOLD_PENDING, and the reading passes the screen. -/
def State.weighs (s : State) (a : Nat) (r : Reading) (n : Nat) (l : Lane) : Prop :=
  s.hasGross a r ∧ (s.verification a).state.fit = true ∧ s.serves n l a ∧ 1 ≤ n ∧ n ≤ 8 ∧
    (∀ h, l.state ≠ .held h) ∧ r.passes (s.station a).capacity

/-- The lane supplies the tare `x` to a new chest (R75, R95). -/
def State.supplies (s : State) (l : Lane) (x : Nat) : Prop :=
  (l.tareMode = .nominal ∧ ∃ c, s.class? l.tareClass = some c ∧ x = c.nominal) ∨
  (l.tareMode = .individual ∧ l.pendingTare = some x)

/-- Record `id` is the lowest-numbered FREE one (R29). -/
def State.nextRecord (s : State) (id : Nat) : Prop := id < 2048 ∧ s.chest? id = none ∧ ∀ j, j < id → s.chest? j ≠ none

/-- A new chest with the reading fields that a call writes (R32, R100): gross `g`, tare `x`, division `d`. -/
def Lane.newChest (l : Lane) (n g x d : Nat) (p : Place) (net : Option Nat) (fail : Option FailReason) : Chest :=
  { place := p, lane := n, scale := l.scale, gross := g, tare := x, tareSource := l.tareMode, division := d
    net := (g : Int) - x, recNet := net, failReason := fail, reweighed := false, sample := 0, mark := .none
    job := none, markHead := none, reprints := 0 }

/-- A tentative chest with its reading replaced at the reweigh (R102). -/
def Chest.weighedAgain (c : Chest) (g d : Nat) : Chest :=
  { c with gross := g, net := (g : Int) - c.tare, division := d, reweighed := true }

/-- The net `x` on a division `d` passes the acceptance test of the lot (R96). -/
def Lot.accepts (l : Lot) (x : Int) (d : Nat) : Prop := d ≤ l.margin ∧ l.declNet + d ≤ x ∧ x ≤ (l.declNet : Int) + l.margin

/-- The net `x` on a division `d` fails the acceptance test of the lot with the reason `f` (R96). -/
def Lot.fails (l : Lot) (x : Int) (d : Nat) : FailReason → Prop
  | .resolution => l.margin < d
  | .short => d ≤ l.margin ∧ x < l.declNet + d
  | .over => d ≤ l.margin ∧ l.declNet + d ≤ x ∧ (l.declNet : Int) + l.margin < x

/-- The recorded net of a net `x` for the lot (R97). -/
def Lot.recorded (l : Lot) (x : Int) : Nat := x.toNat / l.step * l.step

/-- The bulk passes the balance test of a recorded net `x` (R62). -/
def Bulk.covers (b : Bulk) (x : Nat) : Prop := b.drawn + x ≤ b.charged + b.charged * b.allowance / 1000

/-- Lane `l` after a chest that it let through, its lot not full: the tentative chest gone, the one-shot flag fired (R79)
and a pending hold ended (R80). -/
def Lane.letThrough (l : Lane) : Lane :=
  { l with
    tentative := none
    oneShot := false
    state := match l.state with
      | .running => if l.oneShot then .held .oneDone else .running
      | .holdPending r => .held r
      | .held r => .held r }

/-- The changes of an acceptance on lane `n`, `l`, of the chest `c` in record `id`, with recorded net `x` (R100, R102). -/
def State.weighsIn (s t : State) (a n : Nat) (l : Lane) (k h : Nat) (lot : Lot) (id : Nat) (c : Chest) (x : Nat) : Prop :=
  t = { s with
    stations := t.stations
    waits := t.waits
    lanes := t.lanes
    lots := t.lots
    bulks := t.bulks
    chests := t.chests
    heads := t.heads
    notices := t.notices } ∧
  (∀ b, t.station b = if b = a then (s.station a).answered (.answer .accepted (lot.accepted + 1)) else s.station b) ∧
  (∀ b, t.wait b = if b = a ∨ (lot.accepted + 1 = lot.planned ∧ s.feedsFrom k b = true) then .none else s.wait b) ∧
  s.accepts t id c k lot h x l.tentative.isSome ∧
  (lot.accepted + 1 ≠ lot.planned →
    s.laneBecomes t n { l.letThrough with pendingTare := if l.tentative = none then none else l.pendingTare } ∧
    s.raisesAs t (fun j =>
      if j = .laneWatch ∧ l.watch = true ∨ j = .laneHeld ∧ l.letThrough.state ≠ l.state then some n else none)) ∧
  (lot.accepted + 1 = lot.planned →
    (∀ m, t.lane? m = if m ∈ s.feeders k then none else s.lane? m) ∧
    s.raisesAs t (fun j =>
      if j = .laneWatch ∧ l.watch = true then some n else if j = .lotFilled then some k else none))

/-- The chest `c` of record `id` is held with a reason, for a call on lane `n`, `l`, which becomes `l'` (R35, R103 to
R105). `kind` is the notice of the outcome. -/
def State.holdsChest (s t : State) (a n : Nat) (l l' : Lane) (id : Nat) (c : Chest) (r : HoldReason) (o : Option Nat)
    (kind : NoticeKind) : Prop :=
  s.answersCall t a (.answer .held r.code) ∧ t.pool = s.pool ++ [id] ∧
  (∀ j, t.chest? j = if j = id then some { c with place := .held r o } else s.chest? j) ∧ s.laneBecomes t n l' ∧
  s.raisesAs t (fun j => if j = kind ∨ j = .laneHeld ∧ l'.state ≠ l.state then some n else none)

/-- The tentative count of lot `k` rises or falls by one, and no other lot changes (R8). -/
def State.countsTentative (s t : State) (k : Nat) (f : Nat → Nat) : Prop :=
  ∀ j, t.lot? j = if j = k then (s.lot? j).map (fun l => { l with tentative := f l.tentative }) else s.lot? j

/-- The gross call in the slot of `a`, on lane `n`, `l`, is left waiting with the kind `w` (R106, R107). -/
def State.leavesWaiting (s t : State) (a n : Nat) (l : Lane) (w : WaitKind) : Prop :=
  (∀ b, t.wait b = if b = a then w else s.wait b) ∧
  (w ≠ .pool ∨ s.wait a = .pool → t = { s with waits := t.waits }) ∧
  (w = .pool → s.wait a ≠ .pool →
    t = { s with waits := t.waits, lanes := t.lanes, notices := t.notices } ∧
    s.laneBecomes t n
      (if l.state = .running then { l with state := .holdPending .holdFull, oneShot := false } else l) ∧
    s.raisesAs t (fun j => if j = .holdFull then some n else none))

/-! ## Laws -/

/-- Every table is in its canonical form (section "Tables" of INVENTORY.md): equal records are equal data. -/
def State.canonical (s : State) : Bool :=
  s.lots.sorted && s.classes.sorted && s.bulks.sorted && s.lanes.sorted && s.chests.sorted &&
  s.stations.canonical Station.cold && s.verifications.canonical Verification.cold && s.heads.canonical Head.cold &&
  s.waits.canonical WaitKind.none && s.notices.canonical Notice.cold

/-- The hold pool holds at most 64 chests and each mark queue at most 16 jobs (R34, R113). -/
def State.withinCapacity (s : State) : Prop := s.pool.length ≤ 64 ∧ ∀ a, (s.head a).queue.length ≤ 16

/-- In every bulk K is the sum of the charged masses, and W is at most K + ⌊K·a/1000⌋ (R49, R62). -/
def State.bulksBalance (s : State) : Prop :=
  s.canonical = true ∧ ∀ k b, s.bulk? k = some b →
    b.charged = (b.components.map Component.charged).sum ∧ b.drawn ≤ b.charged + b.charged * b.allowance / 1000

/-- No two mapped lanes name one scale station (R72). -/
def State.oneLanePerScale (s : State) : Prop :=
  ∀ m n l l', s.lane? m = some l → s.lane? n = some l' → l.scale = l'.scale → m = n

/-- Lanes are numbered 1 to 8; a lane mapped to a lot names a non-free lot; a lot's mapped-lane count is the number of
lanes mapped to it, and is above 0 only in PACKING (R7, R71). -/
def State.lanesCounted (s : State) : Prop :=
  s.canonical = true ∧ (∀ n l, s.lane? n = some l → 1 ≤ n ∧ n ≤ 8) ∧
    (∀ n l k a, s.lane? n = some l → l.target = .lot k a → (s.lot? k).isSome) ∧
    ∀ k l, s.lot? k = some l →
      l.mappedLanes = (s.lanes.filter (fun e => e.2.feeds k)).length ∧ (l.mappedLanes ≠ 0 → l.state = .packing)

/-- What a non-free lot commits (R4): its planned count until it is FINISHING, and its accepted count from then on. -/
def Lot.committed (l : Lot) : Nat :=
  match l.state with
  | .opened => l.planned
  | .packing => l.planned
  | .finishing => l.accepted
  | .complete => l.accepted
  | .declared => l.accepted

/-- The jobs of all queues. -/
def State.jobs (s : State) : List Job := addresses.flatMap (fun a => (s.head a).queue)

/-- No chest has two jobs; a job stands in the queue of a station, for an accepted chest of a non-free lot, which names its
kind; a lot's outstanding marks are its chests' jobs (R11, R37, R113, R118). -/
def State.jobsAgree (s : State) : Prop :=
  s.soleJobs ∧
  (∀ a, ∀ j ∈ (s.head a).queue, 1 ≤ a ∧ a ≤ 14 ∧ ∃ c k n b, s.chest? j.chest = some c ∧ c.job = some j.kind ∧
    c.place = .accepted k n b ∧ (s.lot? k).isSome) ∧
  ∀ k l, s.lot? k = some l →
    l.outstanding = (s.jobs.filter (fun j => s.chestIs j.chest (fun c => c.inLot k))).length

/-- A lane that holds a tentative chest is mapped to the chest's lot, no two lanes hold one, and a lot's t counts the lanes
that do; a lot lane names a stencil station's address (R8, R72). -/
def State.tentativesAgree (s : State) : Prop :=
  (∀ n l id, s.lane? n = some l → l.tentative = some id →
    ∃ k a c, l.target = .lot k a ∧ s.chest? id = some c ∧ c.place = .tentative k) ∧
  (∀ m n l l' id, s.lane? m = some l → s.lane? n = some l' → l.tentative = some id → l'.tentative = some id → m = n) ∧
  (∀ k l, s.lot? k = some l →
    l.tentative = (s.lanes.filter (fun e => e.2.feeds k && e.2.tentative.isSome)).length) ∧
  ∀ n l k a, s.lane? n = some l → l.target = .lot k a → 1 ≤ a ∧ a ≤ 14

/-- The commitments of all lots lie within the budget of 1984 chest records, no lot counts more chests than it plans, and
one that is FINISHING by its fill counts as many (R4, R8, R10). -/
def State.withinBudget (s : State) : Prop :=
  (s.lots.map (fun e => e.2.committed)).sum ≤ 1984 ∧
  ∀ k l, s.lot? k = some l → l.accepted + l.tentative ≤ l.planned ∧
    (l.state = .finishing → l.cause = some .filled → l.accepted = l.planned)

/-- The records of lots, lanes, chests and queues agree with one another, and the lots keep the budget. -/
def State.recordsAgree (s : State) : Prop := s.lanesCounted ∧ s.jobsAgree ∧ s.tentativesAgree ∧ s.withinBudget

/-- Every accepted chest's recorded net lies between its lot's D and D + U and is a multiple of its r, and every lot's D
is a multiple of its r (R5, R97). -/
def State.netsInBand (s : State) : Prop :=
  s.lanesCounted ∧ (∀ k l, s.lot? k = some l → 0 < l.step ∧ l.step ∣ l.declNet) ∧
    ∀ id c k n b, s.chest? id = some c → c.place = .accepted k n b →
      ∃ l x, s.lot? k = some l ∧ c.recNet = some x ∧ l.declNet ≤ x ∧ x ≤ l.declNet + l.margin ∧ l.step ∣ x

end Sys2Proof.Machine
end

