-- ==== Sys2Proof/Certificates/Slice0/Obligations.lean ====
section
/-! DEFINITION. The statements made of the model, each a `Prop` for the provers. In a statement of the form "there is `t`
with exec … = next t", the equation `t = { s with … }` is its frame: what it does not name is as before. -/

section Statements

open Sys2Proof Sys2Proof.Machine

/-! ## Steps, frames and responses -/

/-- A step takes the command at the front of the queue and leaves the rest waiting. -/
def Obligations.StepTakesFrontCommand : Prop :=
  ∀ (c : Instr) (s : State) (rest : List Instr),
    step { s with pending := c :: rest } = exec c { s with pending := rest }

/-- R161. The end of a command window latches its frame unless one is latched already; in RETAIN it does nothing. -/
def Obligations.CommandWindowLatchesFrame : Prop :=
  ∀ (s : State) (b : Byte) (rest : List Byte), b ≠ 0x00 →
    (s.part = .retain → exec (.commandWindowEnd (b :: rest)) s = .next s) ∧
    (s.part ≠ .retain → ∀ f, s.buffer = .preparing f → exec (.commandWindowEnd (b :: rest)) s = .next s) ∧
    (s.part ≠ .retain → (∀ f, s.buffer ≠ .preparing f) →
      exec (.commandWindowEnd (b :: rest)) s = .next { s with buffer := .preparing (b :: rest) })

/-- R163. What a read window shifts out, and when it makes the response READ. That `n` counts the bytes clocked after the
read code is the model's reading (assumption 17), and that they stand in the field sdo its choice (assumption 5). -/
def Obligations.ReadWindowShiftsResponse : Prop :=
  ∀ (s : State) (n : Nat), s.part ≠ .retain →
    (∀ f, s.buffer = .ready f → s.rdyLine = true ∧
      (f.length ≤ n →
        let t := { s with sdo := f ++ List.replicate (n - f.length) 0xFF, buffer := .read f }
        exec (.readWindow n) s = .next t ∧ t.rdyLine = false) ∧
      (n < f.length → exec (.readWindow n) s = .next { s with sdo := f.take n })) ∧
    (∀ f, s.buffer = .read f →
      exec (.readWindow n) s = .next { s with sdo := f.take n ++ List.replicate (n - f.length) 0xFF }) ∧
    (∀ f, s.buffer = .empty ∨ s.buffer = .preparing f →
      exec (.readWindow n) s = .next { s with sdo := List.replicate n 0xFF })

/-- R162. A latched frame cut off before its parameter length, of another length than it says, of more than 100 parameter
bytes, or of a length its command does not take, is answered BAD_FRAME and changes nothing else. A frame whose code names
no command is answered BAD_FRAME in the same cases but the last, and NO_SUCH when it is whole, while PURGING too. That a
badly framed 0x42 is HOLD_LANE's is the model's reading (assumption 9), and so is the length of a frame whose form byte
or presence byte is out of range (assumption 11). -/
def Obligations.BadFrameIsRefused : Prop :=
  (∀ e ∈ hostCommands, ∀ (s : State) (rest : List Byte),
    s.part ≠ .retain → s.buffer = .preparing (e.2.1 :: rest) →
    (¬ ∃ ps, ps.length ≤ 100 ∧ rest = byte ps.length :: ps ∧ e.2.2 ps = true) →
    exec e.1 s = .next { s with buffer := answer e.2.1 0x0C [] }) ∧
  ∀ (s : State) (c : Byte) (rest : List Byte), s.part ≠ .retain → (∀ e ∈ hostCommands, e.2.1 ≠ c) →
    s.buffer = .preparing (c :: rest) →
    ((¬ ∃ ps, ps.length ≤ 100 ∧ rest = byte ps.length :: ps) →
      exec .unknownCommand s = .next { s with buffer := answer c 0x0C [] }) ∧
    ∀ ps, ps.length ≤ 100 → rest = byte ps.length :: ps →
      exec .unknownCommand s = .next { s with buffer := answer c 0x03 [] }

/-- R179, R90, R112, R153, R160. While the part is PURGING every command but READ_PART is answered BUSY and changes nothing
else, and every station call waits in its slot. The model's readings are that a frame of code 0x42 with the force option on
belongs to HOLD_LANE_FORCE (assumption 9), and that a frame whose form or presence byte is out of range has a length that
its command takes (assumption 11). -/
def Obligations.PurgingAnswersBusy : Prop :=
  (∀ (s : State) (ps : List Byte), s.part = .purging → ps.length ≤ 100 →
    (∀ e ∈ hostCommands, e.1 ≠ .readPart → e.2.2 ps = true → (e.1 = .holdLane → ∀ n, readPair ps ≠ some (n, 1)) →
      s.buffer = .preparing (commandFrame e.2.1 ps) →
      exec e.1 s = .next { s with buffer := answer e.2.1 0x02 [] }) ∧
    (∀ n, readPair ps = some (n, 1) → s.buffer = .preparing (commandFrame 0x42 ps) →
      exec .holdLaneForce s = .next { s with buffer := answer 0x42 0x02 [] })) ∧
  ∀ (s : State) (a : Nat), s.part = .purging →
    ∀ i ∈ [.callGross a, .callTare a, .callTest a, .callCharge a, .callDone a, .replyDone a, .replyFault a],
      exec i s = .next s

/-- R164. A command answered with any status but OK (0) or STARTED (1) has changed nothing but the response buffer. -/
def Obligations.RefusedCommandChangesNothing : Prop :=
  ∀ (i : Instr) (s t : State) (code status : Byte) (more : List Byte),
    i ∈ Instr.holdLaneForce :: hostCommands.map (·.1) → exec i s = .next t →
    t.buffer = .ready (code :: status :: more) → status ≠ 0 → status ≠ 1 → t = { s with buffer := t.buffer }

/-- Every command is answered with a next state, but for a gross call that would need a 2,049th chest record. R29 says that
a FREE record always exists then, and the stop with noFreeRecord is the model's choice (assumption 24). -/
def Obligations.EveryCommandCompletes : Prop :=
  ∀ (i : Instr) (s : State),
    (∃ t, exec i s = .next t) ∨
    (∃ a, i = .callGross a ∧ exec i s = .fault .noFreeRecord ∧ ∀ id, id < 2048 → (s.chest? id).isSome)

/-! ## Starts, retention and purge -/

/-- R25, R46, R68, R86, R111, R130, R141, R158, R171. What a cold start leaves in each block. That the state after reset
is the one that such a start leaves, RESTARTED pending, is the model's reading (assumption 1). -/
def Obligations.ResetIsAColdStart : Prop :=
  let s := State.reset
  (∀ k, s.lot? k = none ∧ s.class? k = none ∧ s.bulk? k = none ∧ s.lane? k = none ∧ s.chest? k = none) ∧
  s.commitments = 0 ∧ s.pool = [] ∧
  (∀ a, (s.head a).state = .idle ∧ (s.head a).queue = [] ∧ (s.head a).oneMark = false ∧ (s.head a).message = none ∧
    (s.head a).interval = none) ∧
  (∀ a, (s.verification a).state = .at .unverified ∧ (s.verification a).period = 480 ∧
    (s.verification a).grace = 60 ∧ (s.verification a).action = .suspend ∧ (s.verification a).tolerance = 0 ∧
    (s.verification a).abilities = none ∧ (s.verification a).lastTest = none) ∧
  (∀ a, (s.station a).kind = .none ∧ (s.station a).interval = 0 ∧ (s.station a).join = .absent ∧
    (s.station a).silence = 0 ∧ (s.station a).pages = none ∧ (s.station a).abilities = none ∧
    (s.station a).slot = none ∧ (s.station a).answers = [] ∧ (s.station a).order = none ∧
    (s.station a).lostSinceRead = false ∧ (s.station a).parityErrors = 0 ∧ (s.station a).addressErrors = 0 ∧
    (s.station a).busyAnswers = 0 ∧ (s.station a).losses = 0 ∧ s.wait a = .none) ∧
  s.buffer = .empty ∧ s.rdyLine = false ∧ s.noticeLine = false ∧
  (∀ k, (s.notice k).pending = decide (k = .restarted) ∧ (s.notice k).enable = false ∧
    (s.notice k).repeated = false ∧ (s.notice k).source = if k = .restarted then some 0 else none)

/-- R175, R177. A start with the marker invalid is cold: every block as at reset, the cause as the event gives it. -/
def Obligations.StartWithoutMarkerIsCold : Prop :=
  ∀ (s : State), s.part = .retain → s.marker = none →
    (s.pwrgood = false → s.resetAsserted = false →
      exec .pwrgoodRise s = .next { State.reset with pending := s.pending, restartCause := .power }) ∧
    (s.pwrgood = true → s.resetAsserted = true →
      exec .resetRelease s = .next { State.reset with pending := s.pending, restartCause := .reset })

/-- R26, R34, R69, R87, R131, R142, R159, R172, R177, R182. What a warm restart leaves, with a marker that holds RUNNING and
with one that holds PURGING, and that a release of RESET makes the same start with its own cause. Each mapped lane's
tentative chest, lane by lane, goes to the pool's end while it has room and is freed when it has not, and its lot's t
falls; the records kept are as they were. PURGE_DONE keeps its last source (assumption 25). -/
def Obligations.WarmRestartKeepsRecords : Prop :=
  let stationed (s t : State) := ∀ a, t.station a = if 1 ≤ a ∧ a ≤ 14
    then { Station.cold with kind := (s.station a).kind, interval := (s.station a).interval } else s.station a
  let verified (s t : State) := ∀ a, t.verification a = if 1 ≤ a ∧ a ≤ 14
    then
      let v := s.verification a
      match v.state with
      | .at (.verified _) => { v with state := .at (.due (.running (v.grace * 60000))) }
      | .testing _ _ _ => { v with state := .at .unverified, abilities := none }
      | _ => v
    else s.verification a
  (∀ (s : State), s.part = .retain → s.marker = some .running → s.pwrgood = false → s.resetAsserted = false →
    ∃ t, exec .pwrgoodRise s = .next t ∧
      t = { s with
        part := .running
        pwrgood := true
        marker := none
        purgeTimer := none
        noticesAtPurge := 0
        restartKind := .warm
        restartCause := .power
        purgeFinished := false
        buffer := .empty
        sdo := []
        cycle := none
        linkOut := []
        waits := []
        lots := t.lots
        chests := t.chests
        pool := t.pool
        bulks := t.bulks
        lanes := t.lanes
        heads := t.heads
        stations := t.stations
        verifications := t.verifications
        notices := t.notices } ∧
      stationed s t ∧ verified s t ∧
      (∀ n, t.lane? n = if 1 ≤ n ∧ n ≤ 8
        then (s.lane? n).map (fun l =>
          { l with state := .held .restart, pendingTare := none, oneShot := false, tentative := none })
        else s.lane? n) ∧
      (∀ a, t.head a = if 1 ≤ a ∧ a ≤ 14
        then
          let h := { s.head a with interval := none }
          if h.message.isSome then { h with message := none, reply := none, state := .paused .restart, oneMark := false }
          else h
        else s.head a) ∧
      (∀ k, t.bulk? k = (s.bulk? k).map (fun b =>
        { b with components := b.components.map (fun c =>
          match c.claim with
          | .grant g => { c with claim := .uncertain g }
          | _ => c) })) ∧
      (∀ k, k ≠ .restarted → k ≠ .markUncertain → k ≠ .chargeUncertain → t.notice k = s.notice k) ∧
      t.notice .restarted = (s.notice .restarted).raised (some 1) ∧
      t.notice .markUncertain =
        (s.notice .markUncertain).raisedFor (addresses.filter (fun a => (s.head a).message.isSome)) ∧
      t.notice .chargeUncertain = (s.notice .chargeUncertain).raisedFor
        ((s.bulks.filter (fun e => e.2.components.any (fun c => match c.claim with
          | .grant _ => true
          | _ => false))).map (·.1)) ∧
      (let ids := laneNumbers.filterMap (fun n => (s.lane? n).bind Lane.tentative)
      let front (id : Nat) := ∃ a, 1 ≤ a ∧ a ≤ 14 ∧ (s.head a).message.isSome ∧ ∃ j rest,
        (s.head a).queue = j :: rest ∧ j.chest = id
      ids.Nodup → (∀ id ∈ ids, id ∉ s.pool ∧ ¬ front id ∧ ∃ c k, s.chest? id = some c ∧ c.place = .tentative k) →
        let kept := ids.take (64 - s.pool.length)
        t.pool = s.pool ++ kept ∧
        (∀ k, t.lot? k = (s.lot? k).map (fun l => { l with
          tentative := l.tentative - (ids.filter (fun id =>
            s.chestIs id (fun c => c.place == .tentative k))).length })) ∧
        ∀ id,
          (∀ c k, id ∈ kept → s.chest? id = some c → c.place = .tentative k →
            t.chest? id = some { c with place := .held .restart (some k) }) ∧
          (id ∈ ids → id ∉ kept → t.chest? id = none) ∧
          (id ∉ ids → front id → t.chest? id = (s.chest? id).map (fun c => { c with mark := .uncertain })) ∧
          (id ∉ ids → ¬ front id → t.chest? id = s.chest? id))) ∧
  (∀ (s : State), s.part = .retain → s.marker = some .purging → s.pwrgood = false → s.resetAsserted = false →
    ∃ t, exec .pwrgoodRise s = .next t ∧
      t = { s with
        part := .running
        pwrgood := true
        marker := none
        purgeTimer := none
        noticesAtPurge := 0
        restartKind := .warm
        restartCause := .power
        purgeFinished := true
        buffer := .empty
        sdo := []
        cycle := none
        linkOut := []
        lots := []
        chests := []
        pool := []
        bulks := []
        lanes := []
        waits := []
        heads := t.heads
        stations := t.stations
        verifications := t.verifications
        notices := t.notices } ∧
      stationed s t ∧ verified s t ∧
      (∀ a, t.head a = if 1 ≤ a ∧ a ≤ 14
        then { s.head a with
          queue := []
          interval := none
          message := none
          reply := none
          state := match (s.head a).state with
            | .paused r => .paused r
            | .pausePending => .paused .host
            | _ => .idle }
        else s.head a) ∧
      (∀ k, k ≠ .restarted → k ≠ .purgeDone → t.notice k = s.notice k) ∧
      t.notice .purgeDone = (s.notice .purgeDone).raised none ∧
      t.notice .restarted = (s.notice .restarted).raised (some 1)) ∧
  ∀ (s t : State), s.part = .retain → s.marker ≠ none → s.pwrgood = true → s.resetAsserted = true →
    exec .pwrgoodRise { s with pwrgood := false, resetAsserted := false } = .next t →
    exec .resetRelease s = .next { t with restartCause := .reset }

/-- R174, R176. The entry into RETAIN by a fall of PWRGOOD or an assertion of RESET, and the second of the two in RETAIN.
VBAK below its holding level in RETAIN makes the marker invalid; a supply that fails without a fall of PWRGOOD leaves it
clear, and the next start is cold. -/
def Obligations.RetentionIsEntered : Prop :=
  ∀ (s : State),
    (s.pwrgood = true → s.resetAsserted = false → s.part ≠ .retain →
      ∃ m, m = (if s.part = .purging then EnteredFrom.purging else EnteredFrom.running) ∧
        exec .pwrgoodFall s = .next { s with part := .retain, marker := some m, pwrgood := false } ∧
        exec .resetAssert s = .next { s with part := .retain, marker := some m, resetAsserted := true }) ∧
    (s.part = .retain → s.pwrgood = true → exec .pwrgoodFall s = .next { s with pwrgood := false }) ∧
    (s.part = .retain → s.resetAsserted = false → exec .resetAssert s = .next { s with resetAsserted := true }) ∧
    (s.part = .retain → exec .vbakBelowHoldingLevel s = .next { s with marker := none }) ∧
    (s.part ≠ .retain → s.marker = none → s.pwrgood = true → s.resetAsserted = false →
      ∃ t, exec .supplyFailsWithoutPwrgoodFall s = .next t ∧
        t = { s with part := t.part, pwrgood := t.pwrgood, marker := none } ∧
        exec .pwrgoodRise t = .next { State.reset with pending := s.pending, restartCause := .power })

/-- R175. In RETAIN the two lines that show records are low and released, a rise of PWRGOOD under RESET and a release of
RESET without PWRGOOD do not start the part, and every other command but the supply's changes nothing. That a command
whose event cannot happen changes nothing is the model's choice (assumption 2). -/
def Obligations.RetentionIsQuiet : Prop :=
  ∀ (s : State), s.part = .retain →
    s.rdyLine = false ∧ s.noticeLine = false ∧
    (s.pwrgood = false → s.resetAsserted = true → exec .pwrgoodRise s = .next { s with pwrgood := true }) ∧
    (s.pwrgood = false → s.resetAsserted = true → exec .resetRelease s = .next { s with resetAsserted := false }) ∧
    (∀ i, i ∈ [.holdLaneForce, .unknownCommand, .linkCycle, .purgeComplete] ++ hostCommands.map (·.1) →
      exec i s = .next s) ∧
    (∀ n bytes, exec (.readWindow n) s = .next s ∧ exec (.commandWindowEnd bytes) s = .next s) ∧
    ∀ a w, ∀ i ∈ [.inboundWord a w, .announceWindowExpiry a, .stationLost a, .rejoinInhibitExpiry a, .refusalExpiry a,
      .callGross a, .callTare a, .callTest a, .callCharge a, .callDone a, .replyDone a, .replyFault a, .markTimeout a,
      .intervalExpiry a, .periodExpiry a, .graceExpiry a], exec i s = .next s

/-- R178, R180, R27, R48, R70, R88, R112, R132. PURGE taken: the part is PURGING with 35 ms on the purge timer, each
message in progress has ended, and the answer is STARTED. The completion of the purge empties the records. That
PURGE_DONE, raised with no source, keeps its last source is the model's reading (assumption 25). -/
def Obligations.PurgeEmptiesRecords : Prop :=
  (∀ (s : State), s.part = .running → s.latches 0x7F readNone () →
    let may := (∀ e ∈ s.lots, e.2.state = .complete ∨ e.2.state = .declared) ∧ ∀ e ∈ s.bulks, e.2.state ≠ .charging
    (¬ may → exec .purge s = .next (s.refused 0x7F 0x04)) ∧
    (may → ∃ t, exec .purge s = .next t ∧
      t = { s with
        part := .purging
        purgeTimer := some 35
        noticesAtPurge := (noticeKinds.filter (fun k => (s.notice k).pending)).length
        heads := t.heads
        buffer := answer 0x7F 0x01 [] } ∧
      ∀ a, t.head a = if 1 ≤ a ∧ a ≤ 14 then { s.head a with message := none, reply := none } else s.head a)) ∧
  (∀ (s : State), s.part = .purging → s.purgeTimer = some 0 →
    ∃ t, exec .purgeComplete s = .next t ∧
      t = { s with
        part := .running
        purgeTimer := none
        noticesAtPurge := 0
        lots := []
        chests := []
        pool := []
        bulks := []
        lanes := []
        waits := []
        heads := t.heads
        notices := t.notices } ∧
      (∀ a, 1 ≤ a → a ≤ 14 →
        (t.head a).queue = [] ∧ (t.head a).interval = none ∧ (t.head a).message = none ∧
        (t.head a).oneMark = (s.head a).oneMark ∧
        (t.head a).state = (match (s.head a).state with
          | .paused r => .paused r
          | .pausePending => .paused .host
          | _ => .idle)) ∧
      (∀ k, k ≠ .purgeDone → t.notice k = s.notice k) ∧
      t.notice .purgeDone = { s.notice .purgeDone with
        pending := true
        repeated := (s.notice .purgeDone).repeated || (s.notice .purgeDone).pending })

/-! ## Notices and the part -/

/-- R167 to R170. A raise sets the pending flag, the repeated flag if the kind was pending, and the last source, of its
kind alone; NOTICE is asserted while a kind is pending and enabled. READ_NOTICES reads the set, CLEAR_NOTICES clears the
flags it names and SET_NOTICE_ENABLES writes every enable. That a flag goes in a byte of its own is the model's reading
(assumption 35). -/
def Obligations.NoticesAreRaisedReadAndCleared : Prop :=
  (∀ (s : State) (k : NoticeKind) (x : Nat),
    let t := s.raise k (some x)
    t = { s with notices := t.notices } ∧
    t.notice k = { pending := true, enable := (s.notice k).enable
                   repeated := (s.notice k).repeated || (s.notice k).pending, source := some x } ∧
    (∀ j, j ≠ k → t.notice j = s.notice j) ∧
    (s.noticeLine = true ↔ s.part ≠ .retain ∧ ∃ j, (s.notice j).pending = true ∧ (s.notice j).enable = true)) ∧
  ∀ (s : State), s.part = .running →
    let snapshot := byte 19 :: noticeKinds.flatMap (fun k =>
      let n := s.notice k
      [bit n.pending, bit n.enable, bit n.repeated, bit n.source.isSome, byte (n.source.getD 0)])
    (s.latches 0x78 readNone () →
      exec .readNotices s = .next { s with buffer := answer 0x78 0x00 snapshot }) ∧
    (∀ set, s.latches 0x79 readNoticeSet set →
      (2 ^ 19 ≤ set → exec .clearNotices s = .next (s.refused 0x79 0x05)) ∧
      (set < 2 ^ 19 → ∃ t, exec .clearNotices s = .next t ∧
        t = { s with notices := t.notices, buffer := answer 0x79 0x00 snapshot } ∧
        ∀ k, t.notice k = if set.testBit k.code then { s.notice k with pending := false, repeated := false }
          else s.notice k)) ∧
    (∀ set, s.latches 0x7A readNoticeSet set →
      (2 ^ 19 ≤ set → exec .setNoticeEnables s = .next (s.refused 0x7A 0x05)) ∧
      (set < 2 ^ 19 → ∃ t, exec .setNoticeEnables s = .next t ∧
        t = { s with
          notices := t.notices
          buffer := answer 0x7A 0x00 [byte (set / 65536), byte (set / 256), byte set] } ∧
        ∀ k, t.notice k = { s.notice k with enable := set.testBit k.code }))

/-- R166, R179. READ_PART, taken while PURGING too, byte by byte. That the number of pending kinds is among the figures
that stand as at the purge's start (assumption 28), and that the purge flag goes in one byte (assumption 35), are the
model's readings. -/
def Obligations.ReadPartReports : Prop :=
  ∀ (s : State), s.latches 0x7E readNone () →
    let free := 2048 - s.chests.length
    exec .readPart s = .next { s with
      buffer := answer 0x7E 0x00
        [0x0D, 0x5E, 0x24, 0x16, 0x01, bit (s.part == .purging), bit (s.restartKind == .warm),
         bit (s.restartCause == .reset), bit s.purgeFinished, byte (s.commitments / 256), byte s.commitments,
         byte s.pool.length, byte (free / 256), byte free,
         byte (if s.part = .purging then s.noticesAtPurge
           else (noticeKinds.filter (fun k => (s.notice k).pending)).length)] }

/-! ## Stations and tare classes -/

/-- R156. SET_STATION, its checks in order and its effect. That the end of a refusal empties the answer list is the
model's reading (assumption 26). -/
def Obligations.StationIsConfigured : Prop :=
  ∀ (s : State) (p : SetStationParams), s.part = .running → s.latches 0x10 readSetStation p →
    let a := p.station
    let v := s.station a
    let kind := pageKind p.kind
    let named := (∃ e ∈ s.lanes, e.2.scale = a ∨ ∃ k, e.2.target = .lot k a) ∨
      ∃ e ∈ s.bulks, ∃ c ∈ e.2.components, c.bin = a
    (¬ (1 ≤ a ∧ a ≤ 14) → exec .setStation s = .next (s.refused 0x10 0x03)) ∧
    (1 ≤ a → a ≤ 14 →
      (¬ (p.kind ≤ 3 ∧ p.interval ≤ 10000) → exec .setStation s = .next (s.refused 0x10 0x05)) ∧
      (p.kind ≤ 3 → p.interval ≤ 10000 →
        (v.join = .active ∨ named ∨ (s.head a).queue ≠ [] → exec .setStation s = .next (s.refused 0x10 0x04)) ∧
        (v.join ≠ .active → ¬ named → (s.head a).queue = [] →
          ∃ t, exec .setStation s = .next t ∧
            t = { s with
              stations := t.stations
              verifications := t.verifications
              heads := t.heads
              buffer := answer 0x10 0x00 [byte (t.station a).join.code] } ∧
            (∀ b, b ≠ a → t.station b = s.station b ∧ t.verification b = s.verification b ∧ t.head b = s.head b) ∧
            (v.kind = kind → t.verification a = s.verification a ∧ t.head a = s.head a ∧
              (t.station a).abilities = v.abilities) ∧
            (v.kind ≠ kind → (t.station a).abilities = none ∧
              t.verification a =
                { s.verification a with state := .at .unverified, abilities := none, lastTest := none } ∧
              t.head a = Head.cold) ∧
            (v.join = .refused → t.station a = { v with
              kind := kind
              interval := p.interval
              abilities := (t.station a).abilities
              join := .absent
              silence := 0
              answers := [] }) ∧
            (v.join ≠ .refused →
              t.station a = { v with kind := kind, interval := p.interval, abilities := (t.station a).abilities }))))

/-- R157. READ_STATION: the snapshot, then its counters and LOST_SINCE_READ cleared. -/
def Obligations.StationIsRead : Prop :=
  ∀ (s : State) (a : Nat), s.part = .running → s.latches 0x11 readOne a →
    (¬ (1 ≤ a ∧ a ≤ 14) → exec .readStation s = .next (s.refused 0x11 0x03)) ∧
    (1 ≤ a → a ≤ 14 → ∃ t, exec .readStation s = .next t ∧
      t = { s with stations := t.stations, buffer := answer 0x11 0x00 (s.stationData a) } ∧
      (∀ b, b ≠ a → t.station b = s.station b) ∧
      t.station a = { s.station a with
        lostSinceRead := false
        parityErrors := 0
        addressErrors := 0
        busyAnswers := 0
        losses := 0 })

/-- R2, R3. SET_TARE_CLASS and READ_TARE_CLASS. That a presence byte out of range is followed by no field, and so reaches
check 2, is the model's choice (assumption 11). -/
def Obligations.TareClassIsSet : Prop :=
  ∀ (s : State), s.part = .running →
    (∀ p, s.latches 0x18 readSetTareClass p →
      let good := 1 ≤ p.nominal ∧ p.nominal ≤ 20000 ∧ p.spread ≤ 5000 ∧
        (p.window = some none ∨ ∃ lo hi, p.window = some (some (lo, hi)) ∧ 1 ≤ lo ∧ lo ≤ hi ∧ hi ≤ 20000)
      let locked := (∃ e ∈ s.lots, e.2.tareClass = p.number) ∨
        ∃ e ∈ s.lanes, e.2.target = .hold ∧ e.2.tareClass = p.number
      (7 < p.number → exec .setTareClass s = .next (s.refused 0x18 0x03)) ∧
      (p.number ≤ 7 → ¬ good → exec .setTareClass s = .next (s.refused 0x18 0x05)) ∧
      (p.number ≤ 7 → good → locked → exec .setTareClass s = .next (s.refused 0x18 0x09)) ∧
      (p.number ≤ 7 → good → ¬ locked → ∃ t, exec .setTareClass s = .next t ∧
        t = { s with classes := t.classes, buffer := answer 0x18 0x00 [] } ∧
        t.class? p.number = some { nominal := p.nominal, window := p.window.getD none, spread := p.spread } ∧
        ∀ k, k ≠ p.number → t.class? k = s.class? k)) ∧
    (∀ k, s.latches 0x19 readOne k →
      (7 < k → exec .readTareClass s = .next (s.refused 0x19 0x03)) ∧
      (k ≤ 7 → exec .readTareClass s = .next { s with buffer := answer 0x19 0x00 (s.classData k) }))

/-! ## Bulks -/

/-- R50, R51. OPEN_BULK, its checks in order and the bulk it opens. -/
def Obligations.BulkIsOpened : Prop :=
  ∀ (s : State) (p : OpenBulkParams), s.part = .running → s.latches 0x20 readOpenBulk p →
    let inRange := 1 ≤ p.number ∧ p.number ≤ 9999 ∧ 10000 ≤ p.planned ∧ p.planned ≤ 9999999 ∧ p.allowance ≤ 20 ∧
      textOk 6 p.grade = true ∧ 1 ≤ p.components.length ∧ p.components.length ≤ 6 ∧
      (∀ c ∈ p.components, textOk 6 c.source = true ∧ 1 ≤ c.bin ∧ c.bin ≤ 14) ∧
      (p.components.map ComponentParams.bin).Nodup
    let satisfiable := (∀ c ∈ p.components, c.minShare ≤ c.maxShare ∧ c.maxShare ≤ 1000) ∧
      (p.components.map ComponentParams.minShare).sum ≤ 1000 ∧
      1000 ≤ (p.components.map ComponentParams.maxShare).sum
    let bins := ∀ c ∈ p.components, (s.station c.bin).kind = .bin ∧
      ∀ e ∈ s.bulks, e.2.state = .charging → ∀ d ∈ e.2.components, d.bin ≠ c.bin
    (15 < p.slot → exec .openBulk s = .next (s.refused 0x20 0x03)) ∧
    (p.slot ≤ 15 → s.bulk? p.slot ≠ none → exec .openBulk s = .next (s.refused 0x20 0x04)) ∧
    (p.slot ≤ 15 → s.bulk? p.slot = none →
      (¬ (inRange ∧ satisfiable) → exec .openBulk s = .next (s.refused 0x20 0x05)) ∧
      (inRange → satisfiable → ¬ bins → exec .openBulk s = .next (s.refused 0x20 0x04)) ∧
      (inRange → satisfiable → bins → (∃ e ∈ s.bulks, e.2.number = p.number) →
        exec .openBulk s = .next (s.refused 0x20 0x07)) ∧
      (inRange → satisfiable → bins → (∀ e ∈ s.bulks, e.2.number ≠ p.number) →
        ∃ t, exec .openBulk s = .next t ∧ t = { s with bulks := t.bulks, buffer := answer 0x20 0x00 [] } ∧
          (∀ j, j ≠ p.slot → t.bulk? j = s.bulk? j) ∧
          t.bulk? p.slot = some
            { state := .charging
              number := p.number
              grade := p.grade
              planned := p.planned.toNat
              allowance := p.allowance
              components := p.components.map (fun c =>
                { bin := c.bin, source := c.source, minShare := c.minShare, maxShare := c.maxShare
                  charged := 0, count := 0, claim := .none })
              charged := 0
              drawn := 0
              offRecipe := false
              overshoot := false
              lotRefs := 0 }))

/-- R60, R61. MIX_BULK: its checks, the recipe check in exact integers, and the mixed bulk. The place of the check of an
option byte above 1 is the model's choice (assumption 10), and the component number in one byte its reading (assumption
35). -/
def Obligations.BulkIsMixed : Prop :=
  ∀ (s : State) (k force : Nat), s.part = .running → s.latches 0x21 readPair (k, force) →
    (15 < k → exec .mixBulk s = .next (s.refused 0x21 0x03)) ∧
    (k ≤ 15 → 1 < force → exec .mixBulk s = .next (s.refused 0x21 0x05)) ∧
    (k ≤ 15 → force ≤ 1 → (∀ b, s.bulk? k = some b → b.state ≠ .charging) →
      exec .mixBulk s = .next (s.refused 0x21 0x04)) ∧
    (∀ b, k ≤ 15 → force ≤ 1 → s.bulk? k = some b → b.state = .charging →
      let below (c : Component) : Bool := c.charged * 1000 < c.minShare * b.charged
      let off (c : Component) : Bool := below c || decide (c.maxShare * b.charged < c.charged * 1000)
      let outside := (b.components.zipIdx 1).filter (fun e => off e.1)
      ((∃ c ∈ b.components, c.claim ≠ .none) → exec .mixBulk s = .next (s.refused 0x21 0x08)) ∧
      ((∀ c ∈ b.components, c.claim = .none) →
        (b.charged = 0 → exec .mixBulk s = .next (s.refused 0x21 0x04)) ∧
        (b.charged ≠ 0 → force = 0 → outside ≠ [] →
          exec .mixBulk s = .next { s with
            buffer := answer 0x21 0x0A (byte outside.length :: outside.flatMap (fun e =>
              byte e.2 :: (s4 e.1.charged ++ [bit (!below e.1)]))) }) ∧
        (b.charged ≠ 0 → force = 1 ∨ outside = [] →
          ∃ t, exec .mixBulk s = .next t ∧ t = { s with bulks := t.bulks, buffer := answer 0x21 0x00 [] } ∧
            (∀ j, j ≠ k → t.bulk? j = s.bulk? j) ∧
            t.bulk? k = some { b with state := .mixed, offRecipe := b.offRecipe || decide (outside ≠ []) })))

/-- R59, R56. SETTLE_CHARGE, its checks in order and the charge it counts. The component number in one byte of its frame is
the model's reading (assumption 35). -/
def Obligations.ChargeIsSettled : Prop :=
  ∀ (s : State) (p : SettleParams), s.part = .running → s.latches 0x22 readSettle p →
    (15 < p.slot → exec .settleCharge s = .next (s.refused 0x22 0x03)) ∧
    (p.slot ≤ 15 → (∀ b, s.bulk? p.slot = some b → b.state ≠ .charging) →
      exec .settleCharge s = .next (s.refused 0x22 0x04)) ∧
    (∀ b, p.slot ≤ 15 → s.bulk? p.slot = some b → b.state = .charging →
      (p.component = 0 ∨ b.components.length < p.component →
        exec .settleCharge s = .next (s.refused 0x22 0x03)) ∧
      (∀ c, 1 ≤ p.component → b.components[p.component - 1]? = some c →
        (p.mass < 0 ∨ 500000 < p.mass → exec .settleCharge s = .next (s.refused 0x22 0x05)) ∧
        (0 ≤ p.mass → p.mass ≤ 500000 → (∀ g, c.claim ≠ .uncertain g) →
          exec .settleCharge s = .next (s.refused 0x22 0x04)) ∧
        (∀ g, 0 ≤ p.mass → p.mass ≤ 500000 → c.claim = .uncertain g →
          ∃ t, exec .settleCharge s = .next t ∧
            t = { s with bulks := t.bulks, notices := t.notices, buffer := answer 0x22 0x00 [] } ∧
            s.countsCharge t p.slot b (p.component - 1) c p.mass.toNat g)))

/-- R65, R66. SPEND_BULK and FREE_BULK. -/
def Obligations.BulkIsSpentOrFreed : Prop :=
  ∀ (s : State) (k : Nat), s.part = .running →
    (s.latches 0x23 readOne k →
      (15 < k → exec .spendBulk s = .next (s.refused 0x23 0x03)) ∧
      (k ≤ 15 → (∀ b, s.bulk? k = some b → b.state ≠ .mixed) → exec .spendBulk s = .next (s.refused 0x23 0x04)) ∧
      ∀ b, k ≤ 15 → s.bulk? k = some b → b.state = .mixed →
        ((∃ e ∈ s.lots, e.2.bulk = k ∧ e.2.state ≠ .complete ∧ e.2.state ≠ .declared) →
          exec .spendBulk s = .next (s.refused 0x23 0x04)) ∧
        ((∀ e ∈ s.lots, e.2.bulk = k → e.2.state = .complete ∨ e.2.state = .declared) →
          ∃ t, exec .spendBulk s = .next t ∧ t = { s with bulks := t.bulks, buffer := answer 0x23 0x00 [] } ∧
            (∀ j, j ≠ k → t.bulk? j = s.bulk? j) ∧ t.bulk? k = some { b with state := .spent })) ∧
    (s.latches 0x24 readOne k →
      (15 < k → exec .freeBulk s = .next (s.refused 0x24 0x03)) ∧
      (k ≤ 15 → s.bulk? k = none → exec .freeBulk s = .next (s.refused 0x24 0x04)) ∧
      ∀ b, k ≤ 15 → s.bulk? k = some b →
        (b.lotRefs ≠ 0 → exec .freeBulk s = .next (s.refused 0x24 0x04)) ∧
        (b.lotRefs = 0 → (∃ c ∈ b.components, c.claim ≠ .none) →
          exec .freeBulk s = .next (s.refused 0x24 0x08)) ∧
        (b.lotRefs = 0 → (∀ c ∈ b.components, c.claim = .none) →
          ∃ t, exec .freeBulk s = .next t ∧ t = { s with bulks := t.bulks, buffer := answer 0x24 0x00 [] } ∧
            (∀ j, j ≠ k → t.bulk? j = s.bulk? j) ∧ t.bulk? k = none))

/-- R52, R53. CALL_CHARGE: the first case that applies, and the grant. The value 0 of the answers is the model's reading
(assumption 32). -/
def Obligations.ChargeIsGranted : Prop :=
  ∀ (s : State) (a q : Nat), s.part = .running → 1 ≤ a → a ≤ 14 → (s.station a).join = .active →
    (s.station a).slot = some (.charge q) →
    ((∀ e ∈ s.bulks, e.2.state = .charging → ∀ c ∈ e.2.components, c.bin ≠ a) →
      ∃ t, exec (.callCharge a) s = .next t ∧ t = { s with stations := t.stations, waits := t.waits } ∧
        s.answersCall t a (.answer .noBulk 0)) ∧
    (∀ k b i c top, s.charges k b i c a → (s.station a).abilities = some (.bin top) →
      let g : Int := min (min q ((c.maxShare * b.planned / 1000 : Nat) - c.charged)) (min (b.planned - b.charged) top)
      ∃ t, exec (.callCharge a) s = .next t ∧
        ((∀ m, c.claim = .uncertain m →
          t = { s with stations := t.stations, waits := t.waits } ∧ s.answersCall t a (.answer .uncertain 0)) ∧
        (∀ m, c.claim = .grant m →
          t = { s with stations := t.stations, waits := t.waits } ∧ s.answersCall t a (.answer .inFlight 0)) ∧
        (c.claim = .none → g ≤ 0 →
          t = { s with stations := t.stations, waits := t.waits } ∧ s.answersCall t a (.answer .full 0)) ∧
        (c.claim = .none → 0 < g →
          t = { s with stations := t.stations, waits := t.waits, bulks := t.bulks } ∧
          s.answersCall t a (.grant g.toNat) ∧ (∀ j, j ≠ k → t.bulk? j = s.bulk? j) ∧
          t.bulk? k = some { b with components := b.components.set i { c with claim := .grant g.toNat } })))

/-- R55, R56. CALL_DONE: the first case that applies, and the charge counted. The value 0 of NO_BULK and UNCERTAIN is the
model's reading (assumption 32). -/
def Obligations.ChargeIsCounted : Prop :=
  ∀ (s : State) (a m : Nat), s.part = .running → 1 ≤ a → a ≤ 14 → (s.station a).join = .active →
    (s.station a).slot = some (.done m) →
    ((∀ e ∈ s.bulks, e.2.state = .charging → ∀ c ∈ e.2.components, c.bin ≠ a) →
      ∃ t, exec (.callDone a) s = .next t ∧ t = { s with stations := t.stations, waits := t.waits } ∧
        s.answersCall t a (.answer .noBulk 0)) ∧
    (∀ k b i c, s.charges k b i c a →
      ∃ t, exec (.callDone a) s = .next t ∧
        ((∀ g, c.claim = .uncertain g →
          t = { s with stations := t.stations, waits := t.waits } ∧ s.answersCall t a (.answer .uncertain 0)) ∧
        (∀ g, c.claim = .grant g ∨ (c.claim = .none ∧ g = 0) →
          t = { s with stations := t.stations, waits := t.waits, bulks := t.bulks, notices := t.notices } ∧
          s.answersCall t a (.answer .chargeCounted (min (c.count + 1) 65535)) ∧ s.countsCharge t k b i c m g)))

/-! ## Lots -/

/-- R5, R6. OPEN_LOT, its checks in order and the lot it opens. -/
def Obligations.LotIsOpened : Prop :=
  ∀ (s : State) (p : OpenLotParams), s.part = .running → s.latches 0x30 readOpenLot p →
    let inRange := 1 ≤ p.invoice ∧ p.invoice ≤ 999999 ∧ textOk 12 p.garden = true ∧ textOk 6 p.grade = true ∧
      p.season ≤ 99 ∧ p.bulk ≤ 15 ∧ p.tareClass ≤ 7 ∧ 1000 ≤ p.declNet ∧ p.declNet ≤ 150000 ∧
      (p.step = 10 ∨ p.step = 50 ∨ p.step = 100 ∨ p.step = 200) ∧ (p.step : Int) ∣ p.declNet ∧ p.margin ≤ 5000 ∧
      1 ≤ p.planned ∧ p.planned ≤ 96 ∧ p.sampleLimit ≤ 2000 ∧ p.overmark ≤ 1
    (47 < p.slot → exec .openLot s = .next (s.refused 0x30 0x03)) ∧
    (p.slot ≤ 47 → s.lot? p.slot ≠ none → exec .openLot s = .next (s.refused 0x30 0x04)) ∧
    (p.slot ≤ 47 → s.lot? p.slot = none →
      (¬ inRange → exec .openLot s = .next (s.refused 0x30 0x05)) ∧
      (inRange → s.class? p.tareClass = none ∨ (∀ b, s.bulk? p.bulk = some b → b.grade ≠ p.grade) →
        exec .openLot s = .next (s.refused 0x30 0x04)) ∧
      (∀ b, inRange → s.class? p.tareClass ≠ none → s.bulk? p.bulk = some b → b.grade = p.grade →
        ((∃ e ∈ s.lots, e.2.invoice = p.invoice) → exec .openLot s = .next (s.refused 0x30 0x07)) ∧
        ((∀ e ∈ s.lots, e.2.invoice ≠ p.invoice) → 1984 < p.planned + s.commitments →
          exec .openLot s = .next (s.refused 0x30 0x06)) ∧
        ((∀ e ∈ s.lots, e.2.invoice ≠ p.invoice) → p.planned + s.commitments ≤ 1984 →
          ∃ t, exec .openLot s = .next t ∧
            t = { s with lots := t.lots, bulks := t.bulks, buffer := answer 0x30 0x00 [] } ∧
            (∀ j, j ≠ p.slot → t.lot? j = s.lot? j) ∧ (∀ j, j ≠ p.bulk → t.bulk? j = s.bulk? j) ∧
            t.bulk? p.bulk = some { b with lotRefs := b.lotRefs + 1 } ∧
            t.lot? p.slot = some
              { state := .opened, invoice := p.invoice, garden := p.garden, grade := p.grade, season := p.season
                bulk := p.bulk, tareClass := p.tareClass, declNet := p.declNet.toNat, step := p.step
                margin := p.margin, planned := p.planned, sampleLimit := p.sampleLimit
                overmark := p.overmark == 1, accepted := 0, tentative := 0, outstanding := 0, cause := none
                grossTotal := 0, tareTotal := 0, netTotal := 0, minTare := none, maxTare := none
                sampleTotal := 0, sampledCount := 0, reweighedCount := 0, mappedLanes := 0
                declaration := none })))

/-- R13, R12, R10, R109. CLOSE_LOT: its checks in order, the close, the unmapping of the lot's lanes, and completion. That
the unmapped lanes raise no LANE_HELD is the model's reading (assumption 23), and so is that a waiting call, whose wait
ends here, is answered at its own evaluation (assumption 13). -/
def Obligations.LotIsClosed : Prop :=
  ∀ (s : State) (k : Nat), s.part = .running → s.latches 0x31 readOne k →
    (47 < k → exec .closeLot s = .next (s.refused 0x31 0x03)) ∧
    (k ≤ 47 → (∀ l, s.lot? k = some l → l.state ≠ .opened ∧ l.state ≠ .packing) →
      exec .closeLot s = .next (s.refused 0x31 0x04)) ∧
    (∀ l, k ≤ 47 → s.lot? k = some l → l.state = .opened ∨ l.state = .packing →
      (l.tentative ≠ 0 → exec .closeLot s = .next (s.refused 0x31 0x08)) ∧
      (l.tentative = 0 → l.accepted = 0 → exec .closeLot s = .next (s.refused 0x31 0x04)) ∧
      (l.tentative = 0 → l.accepted ≠ 0 →
        ∃ t, exec .closeLot s = .next t ∧
          t = { s with
            lots := t.lots
            lanes := t.lanes
            waits := t.waits
            notices := t.notices
            buffer := answer 0x31 0x00 [] } ∧
          (∀ b, t.wait b = if s.feedsFrom k b then .none else s.wait b) ∧
          (∀ j, j ≠ k → t.lot? j = s.lot? j) ∧
          (∀ n, t.lane? n = if n ∈ s.feeders k then none else s.lane? n) ∧
          ∃ b : Bool, (b = true ↔ l.outstanding = 0 ∧ s.allMarked k) ∧
            t.lot? k = some { l with
              state := if b then .complete else .finishing
              cause := some .closed
              mappedLanes := l.mappedLanes - (s.feeders k).length } ∧
            s.raisesIf t (b = true) .lotComplete k))

/-- R19, R20. DECLARE_LOT: its checks in order and the declaration worked out in whole figures. -/
def Obligations.LotIsDeclared : Prop :=
  ∀ (s : State) (k : Nat), s.part = .running → s.latches 0x32 readOne k →
    (47 < k → exec .declareLot s = .next (s.refused 0x32 0x03)) ∧
    (k ≤ 47 → (∀ l, s.lot? k = some l → l.state ≠ .complete) →
      exec .declareLot s = .next (s.refused 0x32 0x04)) ∧
    (∀ l, k ≤ 47 → s.lot? k = some l → l.state = .complete →
      (l.outstanding ≠ 0 → exec .declareLot s = .next (s.refused 0x32 0x08)) ∧
      (l.outstanding = 0 → ¬ s.allMarked k → exec .declareLot s = .next (s.refused 0x32 0x04))) ∧
    ∀ l c b lo hi, k ≤ 47 → s.lot? k = some l → l.state = .complete → l.outstanding = 0 → s.allMarked k →
      s.class? l.tareClass = some c → s.bulk? l.bulk = some b → l.minTare = some lo → l.maxTare = some hi →
      let n := l.accepted
      let excess : Int := l.netTotal - n * l.declNet
      ∃ t, exec .declareLot s = .next t ∧ t = { s with lots := t.lots, buffer := answer 0x32 0x00 [] } ∧
        (∀ j, j ≠ k → t.lot? j = s.lot? j) ∧
        t.lot? k = some { l with
          state := .declared
          declaration := some
            { count := n
              declaredNet := l.declNet
              invoiceNet := n * l.declNet - l.sampleTotal
              grossTotal := l.grossTotal
              tareTotal := l.tareTotal
              averageTare := (2 * l.tareTotal + n) / (2 * n)
              excess := excess
              giveaway := (excess * 1000 / (n * l.declNet)).toNat
              tareSpread := hi - lo
              tareMixed := decide (c.spread < hi - lo)
              offRecipe := b.offRecipe
              reweighedCount := l.reweighedCount
              sampledCount := l.sampledCount
              sampleTotal := l.sampleTotal } }

/-- R22, R31. RETIRE_LOT: its checks in order; the lot's chests are freed and held chests forget it. -/
def Obligations.LotIsRetired : Prop :=
  ∀ (s : State) (k : Nat), s.part = .running → s.latches 0x33 readOne k →
    let may (l : Lot) := l.state = .declared ∨ (l.state = .opened ∧ l.accepted = 0 ∧ l.tentative = 0)
    (47 < k → exec .retireLot s = .next (s.refused 0x33 0x03)) ∧
    (k ≤ 47 → (∀ l, s.lot? k = some l → ¬ may l) → exec .retireLot s = .next (s.refused 0x33 0x04)) ∧
    (∀ l, k ≤ 47 → s.lot? k = some l → may l → l.outstanding ≠ 0 →
      exec .retireLot s = .next (s.refused 0x33 0x08)) ∧
    (∀ l, k ≤ 47 → s.lot? k = some l → may l → l.outstanding = 0 → s.chests.sorted = true →
      ∃ t, exec .retireLot s = .next t ∧
        t = { s with lots := t.lots, bulks := t.bulks, chests := t.chests, buffer := answer 0x33 0x00 [] } ∧
        t.lot? k = none ∧ (∀ j, j ≠ k → t.lot? j = s.lot? j) ∧
        (∀ j, t.bulk? j = if j = l.bulk then (s.bulk? j).map (fun b => { b with lotRefs := b.lotRefs - 1 })
          else s.bulk? j) ∧
        ∀ id, t.chest? id = match s.chest? id with
          | none => none
          | some c => match c.place with
            | .accepted j _ _ => if j = k then none else some c
            | .held r (some j) => if j = k then some { c with place := .held r none } else some c
            | _ => some c)

/-- R17, R18. DRAW_SAMPLE from a chest that is there: its checks in order and the sample drawn. That the bound D is on the
chest's samples together is the model's reading (assumption 14). -/
def Obligations.SampleIsDrawn : Prop :=
  ∀ (s : State) (p : SampleParams), s.part = .running → s.latches 0x34 readSample p →
    (47 < p.slot → exec .drawSample s = .next (s.refused 0x34 0x03)) ∧
    (p.slot ≤ 47 → (∀ l, s.lot? p.slot = some l → l.state ≠ .complete) →
      exec .drawSample s = .next (s.refused 0x34 0x04)) ∧
    (∀ l, p.slot ≤ 47 → s.lot? p.slot = some l → l.state = .complete → p.serial = 0 ∨ l.accepted < p.serial →
      exec .drawSample s = .next (s.refused 0x34 0x03)) ∧
    (∀ l id b c, p.slot ≤ 47 → s.lot? p.slot = some l → l.state = .complete → 1 ≤ p.serial → p.serial ≤ l.accepted →
      s.chestBySerial p.slot p.serial = some (id, c) →
      s.chest? id = some c → c.place = .accepted p.slot p.serial b →
      let fits := 1 ≤ p.mass ∧ c.sample + p.mass ≤ l.sampleLimit ∧ c.sample + p.mass < l.declNet
      let head := 1 ≤ p.head ∧ p.head ≤ 14 ∧ (s.station p.head).kind = .stencil
      let lot : Lot := { l with
        sampleTotal := l.sampleTotal + p.mass
        sampledCount := if c.sample = 0 then l.sampledCount + 1 else l.sampledCount }
      let chest : Chest := { c with sample := c.sample + p.mass }
      (c.job ≠ none → exec .drawSample s = .next (s.refused 0x34 0x08)) ∧
      (c.job = none → c.mark ≠ .marked → exec .drawSample s = .next (s.refused 0x34 0x04)) ∧
      (c.job = none → c.mark = .marked → ¬ fits → exec .drawSample s = .next (s.refused 0x34 0x05)) ∧
      (c.job = none → c.mark = .marked → fits → l.overmark = true → ¬ head →
        exec .drawSample s = .next (s.refused 0x34 0x05)) ∧
      (c.job = none → c.mark = .marked → fits → l.overmark = true → head → 16 ≤ (s.head p.head).queue.length →
        exec .drawSample s = .next (s.refused 0x34 0x06)) ∧
      (c.job = none → c.mark = .marked → fits →
        l.overmark = false ∨ (head ∧ (s.head p.head).queue.length < 16) →
        ∃ t, exec .drawSample s = .next t ∧
          t = { s with lots := t.lots, chests := t.chests, heads := t.heads, buffer := answer 0x34 0x00 [] } ∧
          (∀ j, j ≠ p.slot → t.lot? j = s.lot? j) ∧ (∀ j, j ≠ id → t.chest? j = s.chest? j) ∧
          (∀ a, a ≠ p.head ∨ l.overmark = false → t.head a = s.head a) ∧
          (l.overmark = false → t.lot? p.slot = some lot ∧ t.chest? id = some chest) ∧
          (l.overmark = true → t.lot? p.slot = some { lot with outstanding := l.outstanding + 1 } ∧
            t.chest? id = some (chest.queuedAt .overmark p.head) ∧
            t.head p.head = (s.head p.head).joined { chest := id, kind := .overmark })))

/-- R3, R23, R24, R38, R67, R85, R129. A read answers with the record as it stands and changes nothing else. A form byte
out of range is refused with BAD_VALUE (R183), whatever the length of the frame, which is the model's choice (assumption
11). -/
def Obligations.ReadsChangeNothing : Prop :=
  ∀ (s : State), s.part = .running →
    (s.latches 0x25 (readNamed 2) .bad → exec .readBulk s = .next (s.refused 0x25 0x05)) ∧
    (s.latches 0x35 (readNamed 4) .bad → exec .readLot s = .next (s.refused 0x35 0x05)) ∧
    (s.latches 0x50 readChestName .bad → exec .readChest s = .next (s.refused 0x50 0x05)) ∧
    (∀ k, s.latches 0x25 (readNamed 2) (.slot k) →
      exec .readBulk s = .next (if k ≤ 15 then { s with buffer := answer 0x25 0x00 (bulkData (s.bulk? k)) }
        else s.refused 0x25 0x03)) ∧
    (∀ n, s.latches 0x25 (readNamed 2) (.number n) →
      (¬ (1 ≤ n ∧ n ≤ 9999) → exec .readBulk s = .next (s.refused 0x25 0x05)) ∧
      (1 ≤ n → n ≤ 9999 → (∀ e ∈ s.bulks, e.2.number ≠ n) → exec .readBulk s = .next (s.refused 0x25 0x03)) ∧
      (∀ e ∈ s.bulks, 1 ≤ n → n ≤ 9999 → (∀ d ∈ s.bulks, d.2.number = n ↔ d = e) →
        exec .readBulk s = .next { s with buffer := answer 0x25 0x00 (bulkData (some e.2)) })) ∧
    (∀ k, s.latches 0x35 (readNamed 4) (.slot k) →
      exec .readLot s = .next (if k ≤ 47 then { s with buffer := answer 0x35 0x00 (lotData (s.lot? k)) }
        else s.refused 0x35 0x03)) ∧
    (∀ n, s.latches 0x35 (readNamed 4) (.number n) →
      (¬ (1 ≤ n ∧ n ≤ 999999) → exec .readLot s = .next (s.refused 0x35 0x05)) ∧
      (1 ≤ n → n ≤ 999999 → (∀ e ∈ s.lots, e.2.invoice ≠ n) → exec .readLot s = .next (s.refused 0x35 0x03)) ∧
      (∀ e ∈ s.lots, 1 ≤ n → n ≤ 999999 → (∀ d ∈ s.lots, d.2.invoice = n ↔ d = e) →
        exec .readLot s = .next { s with buffer := answer 0x35 0x00 (lotData (some e.2)) })) ∧
    (∀ k, s.latches 0x36 readOne k →
      (47 < k → exec .readDeclaration s = .next (s.refused 0x36 0x03)) ∧
      (k ≤ 47 → (∀ l, s.lot? k = some l → l.state ≠ .declared) →
        exec .readDeclaration s = .next (s.refused 0x36 0x04)) ∧
      ∀ l d, k ≤ 47 → s.lot? k = some l → l.state = .declared → l.declaration = some d →
        exec .readDeclaration s = .next { s with buffer := answer 0x36 0x00 (declarationData l d) }) ∧
    (∀ n, s.latches 0x44 readOne n →
      exec .readLane s = .next (if 1 ≤ n ∧ n ≤ 8 then { s with buffer := answer 0x44 0x00 (s.laneData n) }
        else s.refused 0x44 0x03)) ∧
    (∀ id, s.latches 0x50 readChestName (.id id) →
      exec .readChest s = .next (if id ≤ 2047 then { s with buffer := answer 0x50 0x00 (s.readRecord id) }
        else s.refused 0x50 0x03)) ∧
    (∀ k n, s.latches 0x50 readChestName (.serial k n) →
      (¬ (k ≤ 47 ∧ ∃ l, s.lot? k = some l ∧ 1 ≤ n ∧ n ≤ l.accepted) →
        exec .readChest s = .next (s.refused 0x50 0x03)) ∧
      ∀ l id c, k ≤ 47 → s.lot? k = some l → 1 ≤ n → n ≤ l.accepted → s.chestBySerial k n = some (id, c) →
        exec .readChest s = .next { s with buffer := answer 0x50 0x00 (s.readRecord id) }) ∧
    (∀ n, s.latches 0x50 readChestName (.position n) →
      (¬ (1 ≤ n ∧ n ≤ 64) → exec .readChest s = .next (s.refused 0x50 0x05)) ∧
      (1 ≤ n → n ≤ 64 → s.pool.length < n → exec .readChest s = .next (s.refused 0x50 0x03)) ∧
      (∀ id, 1 ≤ n → n ≤ 64 → s.pool[n - 1]? = some id →
        exec .readChest s = .next { s with buffer := answer 0x50 0x00 (s.readRecord id) })) ∧
    (∀ a, s.latches 0x64 readOne a →
      exec .readHead s =
        .next (if 1 ≤ a ∧ a ≤ 14 ∧ (s.station a).kind = .stencil
          then { s with buffer := answer 0x64 0x00 (s.headData a) } else s.refused 0x64 0x03))

/-- Section 11.4, and R183, R184 with the reads' own rules R3, R67, R85 and R129. The data of the reads, every byte. What
R183 leaves open in the data of READ_TARE_CLASS, READ_BULK, READ_LANE and READ_HEAD (assumption 8), the width of flags,
component numbers and mark word indices there (assumption 35), and an expired grace timer of READ_STATION as present with
0 ms (assumption 19) are the model's readings. -/
def Obligations.LayoutsAreAsSpecified : Prop :=
  (∀ l : Lot, l.garden.length ≤ 12 → l.grade.length ≤ 6 → l.data.length = 69 ∧ laidOut l.data [
    (0, 1, [byte l.state.code]), (1, 1, [byte (weighted 1 [l.minTare.isSome, l.declaration.isSome])]),
    (2, 4, be 4 l.invoice), (6, 13, textField 12 l.garden), (19, 7, textField 6 l.grade),
    (26, 3, [byte l.season, byte l.bulk, byte l.tareClass]), (29, 4, s4 l.declNet),
    (33, 4, be 2 l.step ++ be 2 l.margin), (37, 1, [byte l.planned]), (38, 2, be 2 l.sampleLimit),
    (40, 1, [bit l.overmark]), (41, 3, [byte l.accepted, byte l.tentative, byte l.outstanding]),
    (44, 1, [match l.cause with
      | none => 0
      | some .filled => 1
      | some .closed => 2]),
    (45, 12, s4 l.grossTotal ++ s4 l.tareTotal ++ s4 l.netTotal),
    (57, 4, be 2 (l.minTare.getD 0) ++ be 2 (l.maxTare.getD 0)), (61, 4, s4 l.sampleTotal),
    (65, 4, [byte l.sampledCount, byte l.reweighedCount, byte l.mappedLanes, byte l.committed])]) ∧
  lotData none = [0] ∧ (∀ l, lotData (some l) = l.data) ∧
  (∀ (l : Lot) (d : Declaration), l.garden.length ≤ 12 → l.grade.length ≤ 6 →
    (declarationData l d).length = 59 ∧ laidOut (declarationData l d) [
      (0, 4, be 4 l.invoice), (4, 20, textField 12 l.garden ++ textField 6 l.grade), (24, 2, [byte l.season, byte d.count]),
      (26, 16, s4 d.declaredNet ++ s4 d.invoiceNet ++ s4 d.grossTotal ++ s4 d.tareTotal), (42, 2, be 2 d.averageTare),
      (44, 4, s4 d.excess), (48, 4, be 2 d.giveaway ++ be 2 d.tareSpread),
      (52, 1, [byte (weighted 1 [d.tareMixed, d.offRecipe])]), (53, 2, [byte d.reweighedCount, byte d.sampledCount]),
      (55, 4, s4 d.sampleTotal)]) ∧
  (∀ (s : State) (id : Nat) (c : Chest),
    let lot := match c.place with
      | .tentative k => some k
      | .accepted k _ _ => some k
      | .held _ _ => none
    let numbers := match c.place with
      | .accepted _ n b => some (n, b)
      | _ => none
    let held := match c.place with
      | .held r o => some (r, o)
      | _ => none
    let position := if id ∈ s.pool then some (s.pool.idxOf id + 1) else none
    s.readRecord id = (match s.chest? id with
      | some c => s.chestData id c
      | none => [0, 0, 0] ++ be 2 id ++ List.replicate 32 0 ++ [byte s.pool.length]) ∧
    (s.chestData id c).length = 38 ∧ laidOut (s.chestData id c) [
      (0, 1, [byte c.place.code]),
      (1, 2, be 2 (weighted 1 [lot.isSome, numbers.isSome, (held.bind (·.2)).isSome, c.recNet.isSome, c.failReason.isSome,
        held.isSome, numbers.isSome, c.job.isSome, c.markHead.isSome, position.isSome])),
      (3, 2, be 2 id), (5, 5, [byte (lot.getD 0), byte ((numbers.map (·.1)).getD 0), byte ((held.bind (·.2)).getD 0),
        byte c.lane, byte c.scale]),
      (10, 4, s4 c.gross), (14, 2, be 2 c.tare), (16, 2, [byte c.tareSource.code, byte c.division]),
      (18, 4, s4 c.net), (22, 4, s4 (c.recNet.getD 0)),
      (26, 4, [byte ((c.failReason.map FailReason.code).getD 0), bit c.reweighed,
        byte ((held.map (fun x => x.1.code)).getD 0), byte ((numbers.map (·.2)).getD 0)]),
      (30, 2, be 2 c.sample), (32, 4, [byte c.mark.code, byte ((c.job.map JobKind.code).getD 0),
        byte (c.markHead.getD 0), byte c.reprints]),
      (36, 2, [byte (position.getD 0), byte s.pool.length])]) ∧
  (∀ (s : State) (a : Nat),
    let u := s.station a
    let v := s.verification a
    let window := match u.join with
      | .announcing w => some w
      | _ => none
    let inhibit := match u.join with
      | .lost i => some i
      | _ => none
    let abilities := match u.abilities with
      | some (.scale d c) => (d, c)
      | some (.stencil p i) => (p, i)
      | some (.bin m) => (m, 0)
      | none => (0, 0)
    let test := match v.state with
      | .testing prior mass sent => some (prior, mass, sent)
      | .at _ => none
    (s.stationData a).length = 78 ∧ laidOut (s.stationData a) [
      (0, 1, [byte u.kind.code]), (1, 2, be 2 u.interval), (3, 1, [byte u.join.code]),
      (4, 1, [byte (weighted 1 [window.isSome, inhibit.isSome, u.pages.isSome, u.abilities.isSome])]),
      (5, 5, be 2 u.silence ++ [byte (window.getD 0)] ++ be 2 (inhibit.getD 0)),
      (10, 9, [byte ((u.pages.map (fun p => p.kind.code)).getD 0)] ++ be 4 ((u.pages.bind Pages.pageB).getD 0) ++
        be 4 ((u.pages.bind Pages.pageC).getD 0)),
      (19, 8, be 4 abilities.1 ++ be 4 abilities.2),
      (27, 3, [byte ((u.slot.map (fun c => c.kindCode + 1)).getD 0), byte u.answers.length, match u.order with
        | some (.test _) => 1
        | some .testEnd => 2
        | none => if (s.head a).message.isSome then 3 else 0]),
      (30, 1, [bit u.lostSinceRead]),
      (31, 8, be 2 u.parityErrors ++ be 2 u.addressErrors ++ be 2 u.busyAnswers ++ be 2 u.losses)] ∧
    (u.kind ≠ .scale → bytesAt (s.stationData a) 39 39 = List.replicate 39 0) ∧
    (u.kind = .scale → laidOut (s.stationData a) [
      (39, 1, [byte (weighted 1 [v.state.periodTimer.isSome, v.state.graceTimer.isSome,
        v.state.graceTimer == some .expired, test.isSome, test.isSome, (test.map (·.2.2)).getD false,
        v.abilities.isSome, v.lastTest.isSome])]),
      (40, 7, [byte v.state.code] ++ be 2 v.period ++ [byte v.grace, byte v.action.code] ++ be 2 v.tolerance),
      (47, 8, be 4 (v.state.periodTimer.getD 0) ++ be 4 ((v.state.graceTimer.map Grace.ms).getD 0)),
      (55, 5, [byte ((test.map (·.1.code)).getD 0)] ++ s4 ((test.map (·.2.1)).getD 0)),
      (60, 5, [byte ((v.abilities.map (·.1)).getD 0)] ++ be 4 ((v.abilities.map (·.2)).getD 0)),
      (65, 13, match v.lastTest with
        | some x => s4 x.mass ++ s4 x.reading ++ s4 x.difference ++ [bit (!x.pass)]
        | none => List.replicate 13 0)])) ∧
  (∀ (s : State) (k : Nat), ∃ locked : Bool,
    (locked = true ↔ (∃ e ∈ s.lots, e.2.tareClass = k) ∨ ∃ e ∈ s.lanes, e.2.target = .hold ∧ e.2.tareClass = k) ∧
    (s.class? k = none → s.classData k = List.replicate 12 0 ++ [bit locked]) ∧
    ∀ c, s.class? k = some c → s.classData k = [1, 1] ++ be 2 c.nominal ++ (match c.window with
      | some (lo, hi) => [1] ++ be 2 lo ++ be 2 hi
      | none => List.replicate 5 0) ++ [1] ++ be 2 c.spread ++ [bit locked]) ∧
  bulkData none = [0] ∧
  (∀ b : Bulk,
    let limit := b.charged + b.charged * b.allowance / 1000
    bulkData (some b) =
      [byte b.state.code] ++ be 2 b.number ++ textField 6 b.grade ++ s4 b.planned ++ be 2 b.allowance ++
      [byte b.components.length] ++ b.components.flatMap (fun c =>
        [byte c.bin] ++ textField 6 c.source ++ be 2 c.minShare ++ be 2 c.maxShare ++ s4 c.charged ++ be 2 c.count ++
        (match c.claim with
          | .grant g => [1] ++ s4 g ++ List.replicate 5 0
          | .uncertain g => List.replicate 5 0 ++ [1] ++ s4 g
          | .none => List.replicate 10 0)) ++
      s4 b.charged ++ s4 b.drawn ++ [bit b.offRecipe, bit b.overshoot, byte b.lotRefs, byte b.components.length] ++
      b.components.flatMap (fun c => s4 ((c.maxShare * b.planned / 1000 : Nat) - (c.charged : Int))) ++
      s4 ((b.planned : Int) - b.charged) ++ s4 limit ++ s4 ((limit : Int) - b.drawn)) ∧
  (∀ (s : State) (n : Nat), (s.lane? n = none → s.laneData n = [0]) ∧
    ∀ l, s.lane? n = some l →
      let lot := match l.target with
        | .lot k a => some (k, a)
        | .hold => none
      let reason := match l.state with
        | .running => none
        | .holdPending r => some r
        | .held r => some r
      s.laneData n = [byte l.state.code, byte ((lot.map (·.1)).getD 255), byte l.scale] ++ figure 1 (lot.map (·.2)) ++
        [byte l.tareMode.code, byte l.tareClass] ++ figure 2 l.pendingTare ++ [bit l.watch, bit l.oneShot] ++
        figure 1 (reason.map LaneHold.code) ++ figure 2 l.tentative ++ [bit (s.wait l.scale != .none)] ++
        figure 4 (lot.map (fun x => (s.lotD x.1).invoice))) ∧
  ∀ (s : State) (a : Nat),
    let h := s.head a
    let reason := match h.state with
      | .paused r => some r
      | _ => none
    let fault := match h.state with
      | .paused (.fault c) => some c
      | _ => none
    let pace := match (s.station a).abilities with
      | some (.stencil p i) => some (p, i)
      | _ => none
    s.headData a = [byte h.state.code] ++ figure 1 (reason.map PauseReason.code) ++ figure 1 (fault.map FaultCode.code) ++
      [bit h.oneMark] ++ figure 4 h.interval ++ figure 1 (h.message.map Message.next) ++ figure 4 h.reply ++
      figure 4 (pace.map (·.2)) ++ figure 4 (pace.map (·.1)) ++ [byte h.queue.length] ++ h.queue.flatMap (fun j =>
        let c := s.chestD j.chest
        let place := match c.place with
          | .accepted k n _ => (k, n)
          | _ => (0, 0)
        be 2 j.chest ++ [byte j.kind.code, byte place.1, byte place.2, byte c.mark.code])

/-! ## Lanes -/

/-- R72, R73, R7. MAP_LANE: its checks in order, the lane's first state and the lot's mapped-lane count. The answer's
presence byte for the reason, and the watch and presence bytes in check 2, are the model's readings (assumptions 8, 30). -/
def Obligations.LaneIsMapped : Prop :=
  ∀ (s : State) (p : MapLaneParams), s.part = .running → s.latches 0x40 readMapLane p →
    (¬ (1 ≤ p.lane ∧ p.lane ≤ 8) → exec .mapLane s = .next (s.refused 0x40 0x03)) ∧
    (1 ≤ p.lane → p.lane ≤ 8 →
      p.target?.isNone = true ∨ ¬ (1 ≤ p.scale ∧ p.scale ≤ 14) ∨ 1 < p.tareMode ∨ 1 < p.watch →
      exec .mapLane s = .next (s.refused 0x40 0x05)) ∧
    (∀ target cls, 1 ≤ p.lane → p.lane ≤ 8 → 1 ≤ p.scale → p.scale ≤ 14 → p.tareMode ≤ 1 → p.watch ≤ 1 →
      (∃ k a, p.target = k ∧ k ≤ 47 ∧ p.stencil = some (some a) ∧ 1 ≤ a ∧ a ≤ 14 ∧ p.tareClass = some none ∧
        target = .lot k a ∧ cls = (s.lotD k).tareClass) ∨
      (p.target = 255 ∧ p.stencil = some none ∧ p.tareClass = some (some cls) ∧ cls ≤ 7 ∧ target = .hold) →
      let fed := (s.lane? p.lane = none) ∧
        (∀ k a, target = .lot k a → (s.station a).kind = .stencil ∧ ∃ l b, s.lot? k = some l ∧
          (l.state = .opened ∨ l.state = .packing) ∧ s.bulk? l.bulk = some b ∧ b.state = .mixed) ∧
        (target = .hold → s.class? cls ≠ none) ∧ (s.station p.scale).kind = .scale
      let windowed := p.tareMode = 0 ∨ ∃ c w, s.class? cls = some c ∧ c.window = some w
      let headless : Bool := match target with
        | .lot _ a => (s.station a).join != .active
        | .hold => false
      let st : LaneState :=
        if (s.station p.scale).join ≠ .active then .held .scaleAbsent
        else if headless then .held .headAbsent
        else match (s.verification p.scale).state with
          | .at .suspended => .held .scaleSuspended
          | .testing _ _ _ => .held .scaleTesting
          | _ => .running
      (¬ fed → exec .mapLane s = .next (s.refused 0x40 0x04)) ∧
      (fed → (∃ e ∈ s.lanes, e.2.scale = p.scale) → exec .mapLane s = .next (s.refused 0x40 0x07)) ∧
      (fed → (∀ e ∈ s.lanes, e.2.scale ≠ p.scale) → ¬ windowed →
        exec .mapLane s = .next (s.refused 0x40 0x04)) ∧
      (fed → (∀ e ∈ s.lanes, e.2.scale ≠ p.scale) → windowed →
        ∃ t, exec .mapLane s = .next t ∧
          t = { s with
            lanes := t.lanes
            lots := t.lots
            buffer := answer 0x40 0x00
              [byte st.code, bit st.reason.isSome, byte ((st.reason.map LaneHold.code).getD 0)] } ∧
          (∀ m, m ≠ p.lane → t.lane? m = s.lane? m) ∧
          t.lane? p.lane = some
            { state := st
              target := target
              scale := p.scale
              tareMode := if p.tareMode = 0 then .nominal else .individual
              tareClass := cls
              pendingTare := none
              watch := p.watch == 1
              oneShot := false
              tentative := none } ∧
          (∀ k, (∀ a, target ≠ .lot k a) → t.lot? k = s.lot? k) ∧
          (∀ k a l, target = .lot k a → s.lot? k = some l → t.lot? k = some { l with
            mappedLanes := l.mappedLanes + 1
            state := if l.state = .opened ∧ l.mappedLanes = 0 then .packing else l.state })))

/-- R74, R7, R109. UNMAP_LANE: its checks in order, the lane, its scale's wait and the lot's mapped-lane count. That a
waiting call, whose wait ends here, is answered at its own evaluation is the model's reading (assumption 13). -/
def Obligations.LaneIsUnmapped : Prop :=
  ∀ (s : State) (n : Nat), s.part = .running → s.latches 0x41 readOne n →
    (¬ (1 ≤ n ∧ n ≤ 8) → exec .unmapLane s = .next (s.refused 0x41 0x03)) ∧
    (1 ≤ n → n ≤ 8 → s.lane? n = none → exec .unmapLane s = .next (s.refused 0x41 0x04)) ∧
    (∀ l, 1 ≤ n → n ≤ 8 → s.lane? n = some l →
      (l.tentative ≠ none → exec .unmapLane s = .next (s.refused 0x41 0x08)) ∧
      (l.tentative = none → ∃ t, exec .unmapLane s = .next t ∧
        t = { s with lanes := t.lanes, lots := t.lots, waits := t.waits, buffer := answer 0x41 0x00 [] } ∧
        (∀ b, t.wait b = if b = l.scale then .none else s.wait b) ∧
        t.lane? n = none ∧ (∀ m, m ≠ n → t.lane? m = s.lane? m) ∧
        (∀ k, (∀ a, l.target ≠ .lot k a) → t.lot? k = s.lot? k) ∧
        (∀ k a u, l.target = .lot k a → s.lot? k = some u → t.lot? k = some { u with
          mappedLanes := u.mappedLanes - 1
          state := if u.state = .packing ∧ u.mappedLanes = 1 then .opened else u.state })))

/-- R80, R81. HOLD_LANE without force: the lane, its latched reason, and the answer. The model's readings are the refusal of
an option byte above 1 (assumption 10), the two bytes of the answer (assumption 8), and that this row takes every frame
of code 0x42 without the force option (assumption 9). -/
def Obligations.LaneIsHeld : Prop :=
  ∀ (s : State) (n f : Nat), s.part = .running → s.latches 0x42 readPair (n, f) → f ≠ 1 →
    (¬ (1 ≤ n ∧ n ≤ 8) → exec .holdLane s = .next (s.refused 0x42 0x03)) ∧
    (1 ≤ n → n ≤ 8 → 1 < f → exec .holdLane s = .next (s.refused 0x42 0x05)) ∧
    (1 ≤ n → n ≤ 8 → f = 0 → s.lane? n = none → exec .holdLane s = .next (s.refused 0x42 0x04)) ∧
    ∀ l, 1 ≤ n → n ≤ 8 → f = 0 → s.lane? n = some l →
    let busy := l.tentative ≠ none ∨ s.wait l.scale ≠ .none
    ∃ t, exec .holdLane s = .next t ∧
      t = { s with lanes := t.lanes, buffer := t.buffer } ∧ (∀ m, m ≠ n → t.lane? m = s.lane? m) ∧
      (l.state = .running → busy → t.lane? n = some { l with state := .holdPending .host, oneShot := false } ∧
        t.buffer = answer 0x42 0x00 [0x02, 0x00]) ∧
      (l.state = .running → ¬ busy → t.lane? n = some { l with state := .held .host, oneShot := false } ∧
        t.buffer = answer 0x42 0x00 [0x03, 0x00]) ∧
      (∀ r, l.state = .holdPending r → t.lane? n = some l ∧ t.buffer = answer 0x42 0x00 [0x02, byte r.code]) ∧
      (∀ r, l.state = .held r → t.lane? n = some l ∧ t.buffer = answer 0x42 0x00 [0x03, byte r.code])

/-- R82, R34, R127, R115, R11. HOLD_LANE with force: the lane, its tentative chest, its waiting call and its queued FIRST
jobs, in every queue. The model's readings are the bytes of the answer (assumption 8) and that this row takes the frames
of code 0x42 with the force option on (assumption 9); which of several queues is a queue notice's last source is left
open (assumption 16). -/
def Obligations.LaneIsForceHeld : Prop :=
  ∀ (s : State) (n : Nat), s.part = .running → s.latches 0x42 readPair (n, 1) →
    (¬ (1 ≤ n ∧ n ≤ 8) → exec .holdLaneForce s = .next (s.refused 0x42 0x03)) ∧
    (1 ≤ n → n ≤ 8 → s.lane? n = none → exec .holdLaneForce s = .next (s.refused 0x42 0x04)) ∧
    ∀ l, 1 ≤ n → n ≤ 8 → s.lane? n = some l → s.soleJobs →
    (∀ id, l.tentative = some id → ∃ c k, s.chest? id = some c ∧ c.place = .tentative k ∧ c.mark = .none) →
    let reason := match l.state with
      | .running => LaneHold.forced
      | .holdPending r => r
      | .held r => r
    let cut (j : Job) : Bool := j.kind == .first && s.chestIs j.chest (fun c => c.mark == .queued && c.lane == n)
    let out := addresses.flatMap (fun a => (s.head a).queue.filter cut)
    let left (a : Nat) := (s.head a).queue.filter (fun j => !cut j)
    let roomy := s.pool.length < 64
    ∃ t, exec .holdLaneForce s = .next t ∧
      t = { s with
        lanes := t.lanes
        lots := t.lots
        chests := t.chests
        pool := t.pool
        heads := t.heads
        stations := t.stations
        waits := t.waits
        notices := t.notices
        buffer := t.buffer } ∧
      (∀ m, m ≠ n → t.lane? m = s.lane? m) ∧
      t.lane? n = some { l with state := .held reason, oneShot := false, tentative := none } ∧
      (∀ a, t.head a = if 1 ≤ a ∧ a ≤ 14
        then { s.head a with
          queue := left a
          state := if (s.head a).state = .ready ∧ left a = [] then .idle else (s.head a).state }
        else s.head a) ∧
      (∀ k, t.lot? k = (s.lot? k).map (fun u => { u with
        tentative := u.tentative -
          (l.tentative.filter (fun id => s.chestIs id (fun c => c.place == .tentative k))).toList.length
        outstanding := u.outstanding - (out.filter (fun j => s.chestIs j.chest (fun c => c.inLot k))).length })) ∧
      s.cancels t out l.tentative ∧ (∀ k, k ≠ .queueEmpty → k ≠ .queueLow → t.notice k = s.notice k) ∧
      s.raisesAmong t .queueEmpty (addresses.filter (fun a => (s.head a).queue ≠ [] ∧ left a = [])) ∧
      s.raisesAmong t .queueLow (addresses.filter (fun a => 4 ≤ (s.head a).queue.length ∧ (left a).length ≤ 3)) ∧
      (s.wait l.scale = .none → (∀ a, t.station a = s.station a ∧ t.wait a = s.wait a)) ∧
      (s.wait l.scale ≠ .none → (s.station l.scale).join = .active →
        s.answersCall t l.scale (.answer .laneHeld 0)) ∧
      (l.tentative = none → t.pool = s.pool ∧
        t.buffer = answer 0x42 0x00 [0, 0, 0, 0, 0, 0, byte out.length, byte reason.code]) ∧
      (∀ id c k, l.tentative = some id → s.chest? id = some c → c.place = .tentative k → id ∉ s.pool →
        (roomy → t.pool = s.pool ++ [id] ∧ t.chest? id = some { c with place := .held .forced (some k) } ∧
          t.buffer = answer 0x42 0x00 [1, byte (id / 256), byte id, 1, 1, byte (s.pool.length + 1), byte out.length,
            byte reason.code]) ∧
        (¬ roomy → t.pool = s.pool ∧ t.chest? id = none ∧
          t.buffer = answer 0x42 0x00 [1, byte (id / 256), byte id, 2, 0, 0, byte out.length, byte reason.code]))

/-- R84. RELEASE_LANE, its checks in order and the released lane. -/
def Obligations.LaneIsReleased : Prop :=
  ∀ (s : State) (p : ReleaseParams), s.part = .running → s.latches 0x43 readRelease p →
    (¬ (1 ≤ p.lane ∧ p.lane ≤ 8) → exec .releaseLane s = .next (s.refused 0x43 0x03)) ∧
    (1 ≤ p.lane → p.lane ≤ 8 → ¬ (p.one ≤ 1 ∧ p.watch ≤ 2) → exec .releaseLane s = .next (s.refused 0x43 0x05)) ∧
    (1 ≤ p.lane → p.lane ≤ 8 → p.one ≤ 1 → p.watch ≤ 2 → s.lane? p.lane = none →
      exec .releaseLane s = .next (s.refused 0x43 0x04)) ∧
    (∀ l, 1 ≤ p.lane → p.lane ≤ 8 → p.one ≤ 1 → p.watch ≤ 2 → s.lane? p.lane = some l →
      let ready := (∃ r, l.state = .held r) ∧ (s.station l.scale).join = .active ∧
        ((∃ t, (s.verification l.scale).state = .at (.verified t)) ∨
          ∃ g, (s.verification l.scale).state = .at (.due g)) ∧
        ∀ k a, l.target = .lot k a → (s.station a).join = .active
      (¬ ready → exec .releaseLane s = .next (s.refused 0x43 0x04)) ∧
      (ready → ∃ t, exec .releaseLane s = .next t ∧
        t = { s with lanes := t.lanes, buffer := answer 0x43 0x00 [] } ∧ (∀ m, m ≠ p.lane → t.lane? m = s.lane? m) ∧
        t.lane? p.lane = some { l with
          state := .running
          oneShot := p.one == 1
          watch := if p.watch = 2 then l.watch else p.watch == 1 }))

/-! ## Chests -/

/-- R39, R40, R41. ASSIGN_HELD: its checks in order, its two tests and the acceptance. At a fill, that the unmapped lanes
raise no LANE_HELD is the model's reading (assumption 23), and so is that a waiting call of theirs, whose wait ends here,
is answered at its own evaluation (assumption 13). -/
def Obligations.HeldChestIsAssigned : Prop :=
  ∀ (s : State) (p : AssignParams), s.part = .running → s.latches 0x51 readAssign p →
    (¬ (p.chest ≤ 2047 ∧ p.slot ≤ 47) → exec .assignHeld s = .next (s.refused 0x51 0x03)) ∧
    (p.chest ≤ 2047 → p.slot ≤ 47 →
      (∀ c r o, s.chest? p.chest = some c → c.place ≠ .held r o) ∨
      (∀ l b, s.lot? p.slot = some l → l.state = .opened ∨ l.state = .packing → s.bulk? l.bulk = some b →
        b.state ≠ .mixed) →
      exec .assignHeld s = .next (s.refused 0x51 0x04)) ∧
    ∀ c l b r o, p.chest ≤ 2047 → p.slot ≤ 47 → s.chest? p.chest = some c → s.lot? p.slot = some l →
    s.bulk? l.bulk = some b →
    let fresh := c.place = .held r o ∧ (l.state = .opened ∨ l.state = .packing) ∧ b.state = .mixed
    let head := 1 ≤ p.head ∧ p.head ≤ 14 ∧ (s.station p.head).kind = .stencil
    let d := if (s.station c.scale).kind = .scale ∧ (s.station c.scale).join = .active
      then max c.division (s.station c.scale).division else c.division
    let x := c.net.toNat / l.step * l.step
    let fails (reason : Byte) := exec .assignHeld s = .next { s with buffer := answer 0x51 0x0B [reason] }
    (fresh → l.planned ≤ l.accepted + l.tentative → exec .assignHeld s = .next (s.refused 0x51 0x06)) ∧
    (fresh → l.accepted + l.tentative < l.planned → ¬ head → exec .assignHeld s = .next (s.refused 0x51 0x05)) ∧
    (fresh → l.accepted + l.tentative < l.planned → head → 16 ≤ (s.head p.head).queue.length →
      exec .assignHeld s = .next (s.refused 0x51 0x06)) ∧
    (fresh → l.accepted + l.tentative < l.planned → head → (s.head p.head).queue.length < 16 →
      (l.margin < d → fails 0) ∧
      (d ≤ l.margin → c.net < l.declNet + d → fails 1) ∧
      (d ≤ l.margin → l.declNet + d ≤ c.net → (l.declNet : Int) + l.margin < c.net → fails 2) ∧
      (d ≤ l.margin → l.declNet + d ≤ c.net → c.net ≤ (l.declNet : Int) + l.margin →
        (b.charged + b.charged * b.allowance / 1000 < b.drawn + x → fails 3) ∧
        (b.drawn + x ≤ b.charged + b.charged * b.allowance / 1000 →
          ∃ t, exec .assignHeld s = .next t ∧
            t = { s with
              lots := t.lots
              lanes := t.lanes
              waits := t.waits
              bulks := t.bulks
              chests := t.chests
              heads := t.heads
              notices := t.notices
              pool := s.pool.filter (fun j => j != p.chest)
              buffer := answer 0x51 0x00 [byte (l.accepted + 1)] } ∧
            s.accepts t p.chest c p.slot l p.head x false ∧
            (∀ n, t.lane? n = if l.accepted + 1 = l.planned ∧ n ∈ s.feeders p.slot then none else s.lane? n) ∧
            (∀ b, t.wait b = if l.accepted + 1 = l.planned ∧ s.feedsFrom p.slot b then .none else s.wait b) ∧
            s.raisesIf t (l.accepted + 1 = l.planned) .lotFilled p.slot)))

/-- R42 to R45. RETURN_CHEST and VOID_CHEST of an accepted chest: the checks in order, and what each leaves. -/
def Obligations.AcceptedChestIsRemoved : Prop :=
  ∀ (s : State) (id : Nat) (c : Chest) (k n b x : Nat) (l : Lot), s.part = .running → id ≤ 2047 →
    s.chest? id = some c → c.place = .accepted k n b → s.lot? k = some l → c.recNet = some x →
    let may := (l.state = .opened ∨ l.state = .packing ∨ (l.state = .finishing ∧ l.cause = some .filled)) ∧
      n = l.accepted
    (s.latches 0x52 readChestId id →
      (¬ may → exec .returnChest s = .next (s.refused 0x52 0x04)) ∧
      (may → c.job ≠ none → exec .returnChest s = .next (s.refused 0x52 0x08)) ∧
      (may → c.job = none → 64 ≤ s.pool.length → exec .returnChest s = .next (s.refused 0x52 0x06)) ∧
      (may → c.job = none → s.pool.length < 64 → ∃ t, exec .returnChest s = .next t ∧
        t = { s with
          lots := t.lots
          bulks := t.bulks
          chests := t.chests
          pool := s.pool ++ [id]
          buffer := answer 0x52 0x00 [byte (s.pool.length + 1)] } ∧
        s.removes t id c k l b x ∧ (∀ j, j ≠ id → t.chest? j = s.chest? j) ∧
        t.chest? id = some { c with place := .held .returned (some k) })) ∧
    (s.latches 0x53 readChestId id →
      (¬ may → exec .voidChest s = .next (s.refused 0x53 0x04)) ∧
      (may → c.job ≠ none → exec .voidChest s = .next (s.refused 0x53 0x08)) ∧
      (may → c.job = none → ∃ t, exec .voidChest s = .next t ∧
        t = { s with
          lots := t.lots
          bulks := t.bulks
          chests := t.chests
          pool := s.pool.filter (fun j => j != id)
          buffer := answer 0x53 0x00 [] } ∧
        s.removes t id c k l b x ∧ (∀ j, j ≠ id → t.chest? j = s.chest? j) ∧ t.chest? id = none))

/-- R42, R44. VOID_CHEST of a held chest frees its record; a free or tentative chest is neither returned nor voided. -/
def Obligations.HeldChestIsVoided : Prop :=
  ∀ (s : State) (id : Nat), s.part = .running →
    (s.latches 0x53 readChestId id →
      (2047 < id → exec .voidChest s = .next (s.refused 0x53 0x03)) ∧
      (id ≤ 2047 → s.chest? id = none ∨ (∃ c k, s.chest? id = some c ∧ c.place = .tentative k) →
        exec .voidChest s = .next (s.refused 0x53 0x04)) ∧
      (∀ c r o, id ≤ 2047 → s.chest? id = some c → c.place = .held r o → ∃ t, exec .voidChest s = .next t ∧
        t = { s with
          chests := t.chests
          pool := s.pool.filter (fun j => j != id)
          buffer := answer 0x53 0x00 [] } ∧
        t.chest? id = none ∧ ∀ j, j ≠ id → t.chest? j = s.chest? j)) ∧
    (s.latches 0x52 readChestId id →
      (2047 < id → exec .returnChest s = .next (s.refused 0x52 0x03)) ∧
      (id ≤ 2047 → (∀ c k n b, s.chest? id = some c → c.place ≠ .accepted k n b) →
        exec .returnChest s = .next (s.refused 0x52 0x04)))

/-! ## Heads -/

/-- R125, R126. PAUSE_HEAD and RESUME_HEAD by the head's state. The place of the check of an option byte above 1 is the
model's choice (assumption 10). -/
def Obligations.HeadIsPausedAndResumed : Prop :=
  ∀ (s : State) (a : Nat), s.part = .running →
    let head := 1 ≤ a ∧ a ≤ 14 ∧ (s.station a).kind = .stencil
    let h := s.head a
    (s.latches 0x60 readOne a →
      (¬ head → exec .pauseHead s = .next (s.refused 0x60 0x03)) ∧
      (head → ∃ t st, exec .pauseHead s = .next t ∧
        t = { s with heads := t.heads, buffer := answer 0x60 0x00 [byte st.code] } ∧
        (∀ b, b ≠ a → t.head b = s.head b) ∧ t.head a = { h with oneMark := false, state := st } ∧
        (h.state = .idle ∨ h.state = .ready → st = .paused .host) ∧
        (h.state = .sending ∨ h.state = .printing ∨ h.state = .pausePending → st = .pausePending) ∧
        (∀ r, h.state = .paused r → st = .paused r))) ∧
    (∀ one, s.latches 0x61 readPair (a, one) →
      (¬ head → exec .resumeHead s = .next (s.refused 0x61 0x03)) ∧
      (head → 1 < one → exec .resumeHead s = .next (s.refused 0x61 0x05)) ∧
      (head → one ≤ 1 → h.state = .idle ∨ h.state = .ready ∨ h.state = .sending ∨ h.state = .printing →
        exec .resumeHead s = .next (s.refused 0x61 0x04)) ∧
      (head → one ≤ 1 → h.state = .pausePending ∨ (∃ r, h.state = .paused r) → ∃ t st, exec .resumeHead s = .next t ∧
        t = { s with heads := t.heads, buffer := answer 0x61 0x00 [byte st.code] } ∧
        (∀ b, b ≠ a → t.head b = s.head b) ∧ t.head a = { h with oneMark := one == 1, state := st } ∧
        (h.state = .pausePending → st = if h.reply = none then .sending else .printing) ∧
        (∀ r, h.state = .paused r → st = if h.queue = [] then .idle else .ready)))

/-- R127, R115. FLUSH_HEAD: every job of a PAUSED head's queue is cancelled, its lots count it off, and the queue notices
are raised. -/
def Obligations.HeadIsFlushed : Prop :=
  ∀ (s : State) (a : Nat), s.part = .running → s.latches 0x62 readOne a →
    let head := 1 ≤ a ∧ a ≤ 14 ∧ (s.station a).kind = .stencil
    let q := (s.head a).queue
    (¬ head → exec .flushHead s = .next (s.refused 0x62 0x03)) ∧
    (head → (∀ r, (s.head a).state ≠ .paused r) → exec .flushHead s = .next (s.refused 0x62 0x04)) ∧
    (∀ r, head → (s.head a).state = .paused r → (q.map Job.chest).Nodup →
      (∀ j ∈ q, ∃ c, s.chest? j.chest = some c ∧ (c.mark = .queued ∨ c.mark = .uncertain)) →
      ∃ t, exec .flushHead s = .next t ∧
        t = { s with
          heads := t.heads
          chests := t.chests
          lots := t.lots
          notices := t.notices
          buffer := answer 0x62 0x00 [byte q.length] } ∧
        (∀ b, t.head b = if b = a then { s.head a with queue := [] } else s.head b) ∧ s.cancels t q none ∧
        (∀ k, t.lot? k = (s.lot? k).map (fun l => { l with
          outstanding := l.outstanding - (q.filter (fun j => s.chestIs j.chest (fun c => c.inLot k))).length })) ∧
        ∀ k, t.notice k =
          if (k = .queueEmpty ∧ 1 ≤ q.length) ∨ (k = .queueLow ∧ 4 ≤ q.length)
          then (s.notice k).raised (some a) else s.notice k)

/-- R128, R114. REPRINT: its checks in order and the job appended. That the position answered counts the front job as 1
(assumption 33) and goes in one byte (assumption 35) are the model's readings. -/
def Obligations.ChestIsReprinted : Prop :=
  ∀ (s : State) (p : ReprintParams), s.part = .running → s.latches 0x63 readReprint p →
    let head := 1 ≤ p.head ∧ p.head ≤ 14 ∧ (s.station p.head).kind = .stencil
    (2047 < p.chest → exec .reprint s = .next (s.refused 0x63 0x03)) ∧
    (p.chest ≤ 2047 → ¬ head → exec .reprint s = .next (s.refused 0x63 0x05)) ∧
    (p.chest ≤ 2047 → head → (∀ c k n b, s.chest? p.chest = some c → c.place ≠ .accepted k n b) →
      exec .reprint s = .next (s.refused 0x63 0x04)) ∧
    (∀ c k n b, p.chest ≤ 2047 → head → s.chest? p.chest = some c → c.place = .accepted k n b →
      (c.job ≠ none → exec .reprint s = .next (s.refused 0x63 0x08)) ∧
      (c.job = none → 16 ≤ (s.head p.head).queue.length → exec .reprint s = .next (s.refused 0x63 0x06)) ∧
      (c.job = none → (s.head p.head).queue.length < 16 → ∃ t, exec .reprint s = .next t ∧
        t = { s with
          heads := t.heads
          chests := t.chests
          lots := t.lots
          buffer := answer 0x63 0x00 [byte ((s.head p.head).queue.length + 1)] } ∧
        (∀ a, t.head a = if a = p.head then (s.head a).joined { chest := p.chest, kind := .reprint } else s.head a) ∧
        (∀ j, j ≠ p.chest → t.chest? j = s.chest? j) ∧
        t.chest? p.chest = some ({ c with reprints := min (c.reprints + 1) 255 }.queuedAt .reprint p.head) ∧
        (∀ j, t.lot? j = if j = k then (s.lot? j).map (fun l => { l with outstanding := l.outstanding + 1 })
          else s.lot? j)))

/-! ## Scale verification -/

/-- R134, R137, R139. SET_VERIFY, VERIFY_SCALE and CANCEL_VERIFY. The bytes of SET_VERIFY's answer are the model's reading
(assumption 8), and so is that an expired grace timer shows as present with 0 ms (assumption 19). -/
def Obligations.VerificationIsCommanded : Prop :=
  ∀ (s : State), s.part = .running →
    (∀ p, s.latches 0x70 readSetVerify p →
      let scale := 1 ≤ p.station ∧ p.station ≤ 14 ∧ (s.station p.station).kind = .scale
      let good := 10 ≤ p.period ∧ p.period ≤ 1440 ∧ p.grace ≤ 240 ∧ p.action ≤ 1 ∧ p.tolerance ≤ 1000
      let clamp (st : Standing) : Standing := match st with
        | .verified t => .verified (min t (p.period * 60000))
        | .due (.running t) => .due (.running (min t (p.grace * 60000)))
        | other => other
      let v := s.verification p.station
      let w : Verification := { v with
        period := p.period
        grace := p.grace
        action := if p.action = 0 then .warn else .suspend
        tolerance := p.tolerance
        state := match v.state with
          | .at st => .at (clamp st)
          | .testing prior mass sent => .testing (clamp prior) mass sent }
      (¬ scale → exec .setVerify s = .next (s.refused 0x70 0x03)) ∧
      (scale → ¬ good → exec .setVerify s = .next (s.refused 0x70 0x05)) ∧
      (scale → good → ∃ t, exec .setVerify s = .next t ∧
        t = { s with
          verifications := t.verifications
          buffer := answer 0x70 0x00
            ([byte w.state.code, bit w.state.periodTimer.isSome] ++ be 4 (w.state.periodTimer.getD 0) ++
              [bit w.state.graceTimer.isSome] ++ be 4 ((w.state.graceTimer.map Grace.ms).getD 0)) } ∧
        ∀ a, t.verification a = if a = p.station then w else s.verification a)) ∧
    (∀ p, s.latches 0x71 readVerify p →
      let a := p.station
      let scale := 1 ≤ a ∧ a ≤ 14 ∧ (s.station a).kind = .scale
      let light := 1000 ≤ p.mass ∧ p.mass ≤ 100000
      let idle := (∀ prior m sent, (s.verification a).state ≠ .testing prior m sent) ∧
        ∀ e ∈ s.lanes, e.2.scale = a → ∃ r, e.2.state = .held r
      (¬ scale → exec .verifyScale s = .next (s.refused 0x71 0x03)) ∧
      (scale → ¬ light → exec .verifyScale s = .next (s.refused 0x71 0x05)) ∧
      (scale → light → (s.station a).join ≠ .active → exec .verifyScale s = .next (s.refused 0x71 0x04)) ∧
      (scale → light → (s.station a).join = .active → ((s.station a).capacity : Int) < p.mass →
        exec .verifyScale s = .next (s.refused 0x71 0x05)) ∧
      (scale → light → (s.station a).join = .active → p.mass ≤ (s.station a).capacity →
        (¬ idle → exec .verifyScale s = .next (s.refused 0x71 0x04)) ∧
        (idle → (s.station a).order ≠ none → exec .verifyScale s = .next (s.refused 0x71 0x08)) ∧
        (∀ st, idle → (s.station a).order = none → (s.verification a).state = .at st →
          ∃ t, exec .verifyScale s = .next t ∧
            t = { s with
              verifications := t.verifications
              stations := t.stations
              buffer := answer 0x71 0x00 [] } ∧
            (∀ b, t.verification b = if b = a then { s.verification a with state := .testing st p.mass.toNat false }
              else s.verification b) ∧
            ∀ b, t.station b = if b = a then { s.station a with order := some (.test p.mass.toNat) }
              else s.station b))) ∧
    (∀ a, s.latches 0x72 readOne a →
      let scale := 1 ≤ a ∧ a ≤ 14 ∧ (s.station a).kind = .scale
      (¬ scale → exec .cancelVerify s = .next (s.refused 0x72 0x03)) ∧
      (∀ st, scale → (s.verification a).state = .at st → exec .cancelVerify s = .next (s.refused 0x72 0x04)) ∧
      (∀ prior m sent, scale → (s.verification a).state = .testing prior m sent →
        ∃ t, exec .cancelVerify s = .next t ∧
          t = { s with
            verifications := t.verifications
            stations := t.stations
            buffer := answer 0x72 0x00 [byte prior.code] } ∧
          (∀ b, t.verification b = if b = a then { s.verification a with state := .at prior } else s.verification b) ∧
          ∀ b, t.station b = if b = a then { s.station a with order := if sent then some .testEnd else none }
            else s.station b))

/-- R138. CALL_TEST: the first case that applies, and what a comparison writes. The value 0 of the answers other than
TEST_PASS and TEST_FAIL is the model's reading (assumption 32). -/
def Obligations.TestReadingIsCompared : Prop :=
  ∀ (s : State) (a : Nat) (r : Reading), s.part = .running → 1 ≤ a → a ≤ 14 → (s.station a).join = .active →
    (s.station a).slot = some (.test r) →
    let v := s.verification a
    let top := (s.station a).capacity
    let only (code : AnswerCode) := ∃ t, exec (.callTest a) s = .next t ∧
      t = { s with stations := t.stations, waits := t.waits } ∧ s.answersCall t a (.answer code 0)
    ((∀ prior m, v.state ≠ .testing prior m true) → only .notTesting) ∧
    ∀ prior m, v.state = .testing prior m true →
      (r.stable = false → only .unstable) ∧
      (r.stable = true → (r.overload = true ∨ top < r.grams) → only .overCapacity) ∧
      (r.stable = true → r.overload = false → r.grams ≤ top → r.underload = true → only .underload) ∧
      (r.passes top →
        let difference := ((r.grams : Int) - m).natAbs
        let pass := decide (difference ≤ max (s.station a).division v.tolerance)
        ∃ t, exec (.callTest a) s = .next t ∧
          t = { s with
            stations := t.stations
            waits := t.waits
            verifications := t.verifications
            notices := t.notices } ∧
          (∀ b, t.station b = if b = a then
            { (s.station a).answered (.answer (if pass then .testPass else .testFail) (min difference 65535)) with
              order := some .testEnd }
            else s.station b) ∧
          (∀ b, t.wait b = if b = a then .none else s.wait b) ∧
          (∀ b, t.verification b = if b = a then
            { v with
              state := if pass then .at (.verified (v.period * 60000)) else .at .suspended
              abilities := if pass then some ((s.station a).division, top) else v.abilities
              lastTest := some { mass := m, reading := r.grams, difference := difference, pass := pass } }
            else s.verification b) ∧
          s.raisesAs t (fun j => if j = .scaleSuspended ∧ pass = false then some a else none))

/-- R119, R135, R136, R109, R147, R149, R150. What each timer and count does at its expiry. The model's readings are that a
timer counts by link cycles (assumption 3), that the waiting call of a scale that becomes SUSPENDED, whose wait ends here,
is answered at its own evaluation, while PURGING too (assumption 13), that an expiry counted in cycles comes with the slot
of its last cycle (assumption 15), and that the end of a refusal empties the answer list (assumption 26). -/
def Obligations.TimersExpire : Prop :=
  ∀ (s : State) (a : Nat), s.part ≠ .retain → 1 ≤ a → a ≤ 14 →
    let v := s.verification a
    let u := s.station a
    let verified (t : State) (w : Verification) := ∀ b, t.verification b = if b = a then w else s.verification b
    let linked (e : Instr) (w : Station) := ∃ t, exec e s = .next t ∧ t = { s with stations := t.stations } ∧
      ∀ b, t.station b = if b = a then w else s.station b
    ((s.head a).interval = some 0 → ∃ t, exec (.intervalExpiry a) s = .next t ∧ t = { s with heads := t.heads } ∧
      ∀ b, t.head b = if b = a then { s.head a with interval := none } else s.head b) ∧
    (v.state = .at (.verified 0) → ∃ t, exec (.periodExpiry a) s = .next t ∧
      t = { s with verifications := t.verifications, notices := t.notices } ∧
      verified t { v with state := .at (.due (.running (v.grace * 60000))) } ∧
      s.raisesAs t (fun j => if j = .verifyDue then some a else none)) ∧
    (v.state = .at (.due (.running 0)) → v.action = .warn → ∃ t, exec (.graceExpiry a) s = .next t ∧
      t = { s with verifications := t.verifications } ∧ verified t { v with state := .at (.due .expired) }) ∧
    (v.state = .at (.due (.running 0)) → v.action = .suspend → ∃ t, exec (.graceExpiry a) s = .next t ∧
      t = { s with verifications := t.verifications, notices := t.notices, lanes := t.lanes, waits := t.waits } ∧
      verified t { v with state := .at .suspended } ∧ (∀ b, t.wait b = if b = a then .none else s.wait b) ∧
      ((s.laneOf a = none ∨ ∃ n l, s.serves n l a ∧
        ((∃ r, l.state = .held r) ∨ (∃ r, l.state = .holdPending r) ∧ l.tentative ≠ none)) → t.lanes = s.lanes ∧
        s.raisesAs t (fun j => if j = .scaleSuspended then some a else none)) ∧
      ∀ n l, s.serves n l a →
        (l.state = .running → l.tentative ≠ none →
          s.laneBecomes t n { l with state := .holdPending .scaleSuspended, oneShot := false } ∧
          s.raisesAs t (fun j => if j = .scaleSuspended then some a else none)) ∧
        (∀ w, l.tentative = none →
          (l.state = .running ∧ w = { l with state := .held .scaleSuspended, oneShot := false } ∨
            ∃ r, l.state = .holdPending r ∧ w = { l with state := .held r }) →
          s.laneBecomes t n w ∧ s.raisesAs t (fun j =>
            if j = .scaleSuspended then some a else if j = .laneHeld then some n else none))) ∧
    (∀ w, u.slotOpen = true → u.join = .announcing w → 249 ≤ w → linked (.announceWindowExpiry a)
      { u with join := .absent, pages := none, silence := min (u.silence + 1) 500, slotOpen := false }) ∧
    (∀ i, u.slotOpen = true → u.join = .lost i → 499 ≤ i →
      linked (.rejoinInhibitExpiry a) { u with join := .absent, silence := 0, slotOpen := false }) ∧
    (u.slotOpen = true → u.join = .refused → 499 ≤ u.silence →
      linked (.refusalExpiry a) { u with join := .absent, silence := 0, answers := [], slotOpen := false })

/-! ## Gross and tare calls -/

/-- R91 to R93, R95. The answers that the gates give to a gross call, in their order. -/
def Obligations.GrossCallIsScreened : Prop :=
  ∀ (s : State) (a : Nat) (r : Reading), s.hasGross a r →
    let v := (s.verification a).state
    let top := (s.station a).capacity
    let only (code : AnswerCode) := ∃ t, exec (.callGross a) s = .next t ∧ s.answersGross t a code
    ((∃ p m b, v = .testing p m b) → only .testing) ∧
    (v = .at .unverified ∨ v = .at .suspended → only .notVerified) ∧
    (v.fit = true →
      ((∀ e ∈ s.lanes, e.2.scale ≠ a) → only .noLane) ∧
      ∀ n l, s.serves n l a →
        ((∃ h, l.state = .held h) → only .laneHeld) ∧
        ((∀ h, l.state ≠ .held h) →
          (r.stable = false → only .unstable) ∧
          (r.stable = true → (r.overload = true ∨ top < r.grams) → only .overCapacity) ∧
          (r.stable = true → r.overload = false → r.grams ≤ top → r.underload = true → only .underload) ∧
          (r.passes top → l.tareMode = .individual → l.pendingTare = none →
            (l.tentative = none ∨ l.target = .hold) → only .noTare)))

/-- R94, R96 to R98, R100, R102. A gross call that passes both tests and finds room accepts a new chest, or the lane's
tentative chest at its reweigh. At a fill, that the unmapped lanes raise no LANE_HELD is the model's reading (assumption
23), and so is that another call that waits there, whose wait ends here, is answered at its own evaluation (assumption
13). -/
def Obligations.GrossCallAcceptsChest : Prop :=
  ∀ (s : State) (a n k h : Nat) (r : Reading) (l : Lane) (lot : Lot) (b : Bulk), s.weighs a r n l →
    l.target = .lot k h → s.lot? k = some lot → s.bulk? lot.bulk = some b → (s.head h).queue.length < 16 →
    let d := (s.station a).division
    let g := r.grams / d * d
    (∀ tare id, l.tentative = none → s.supplies l tare → s.nextRecord id → lot.accepted + lot.tentative < lot.planned →
      let x := lot.recorded ((g : Int) - tare)
      lot.accepts ((g : Int) - tare) d → b.covers x →
      ∃ t, exec (.callGross a) s = .next t ∧
        s.weighsIn t a n l k h lot id (l.newChest n g tare d (.tentative k) none none) x) ∧
    (∀ id c, l.tentative = some id → s.chest? id = some c →
      let x := lot.recorded ((g : Int) - c.tare)
      lot.accepts ((g : Int) - c.tare) d → b.covers x →
      ∃ t, exec (.callGross a) s = .next t ∧ s.weighsIn t a n l k h lot id (c.weighedAgain g d) x)

/-- R101, R103 to R105. The outcomes of a gross call that finds room but accepts no chest: first fail, second fail,
BALANCE of a new chest and of a tentative one, and UNASSIGNED. -/
def Obligations.GrossCallHoldsChest : Prop :=
  ∀ (s : State) (a n : Nat) (r : Reading) (l : Lane), s.weighs a r n l →
    let d := (s.station a).division
    let g := r.grams / d * d
    let balanced := { l with
      tentative := none
      oneShot := if l.state = .running then false else l.oneShot
      state := match l.state with
        | .running => .held .balance
        | .holdPending u => .held u
        | .held u => .held u }
    (∀ k h lot, l.target = .lot k h → s.lot? k = some lot →
      (∀ tare id, l.tentative = none → s.supplies l tare → s.nextRecord id →
        lot.accepted + lot.tentative < lot.planned →
        let net := (g : Int) - tare
        (∀ f, lot.fails net d f → ∃ t, exec (.callGross a) s = .next t ∧
          t = { s with stations := t.stations, waits := t.waits, lanes := t.lanes, lots := t.lots, chests := t.chests } ∧
          s.answersCall t a (.answer .reweigh f.code) ∧ s.countsTentative t k (· + 1) ∧
          s.laneBecomes t n { l with pendingTare := none, tentative := some id } ∧
          ∀ j, t.chest? j = if j = id then some (l.newChest n g tare d (.tentative k) none (some f)) else s.chest? j) ∧
        (∀ b, s.bulk? lot.bulk = some b → lot.accepts net d → ¬ b.covers (lot.recorded net) → s.pool.length < 64 →
          ∃ t, exec (.callGross a) s = .next t ∧
            t = { s with
              stations := t.stations
              waits := t.waits
              lanes := t.lanes
              chests := t.chests
              pool := t.pool
              notices := t.notices } ∧
            s.holdsChest t a n l { balanced with pendingTare := none } id
              (l.newChest n g tare d (.tentative k) (some (lot.recorded net)) none) .balance (some k) .balance)) ∧
      (∀ id c, l.tentative = some id → s.chest? id = some c → s.pool.length < 64 →
        let net := (g : Int) - c.tare
        (∀ f, lot.fails net d f → ∃ t, exec (.callGross a) s = .next t ∧
          t = { s with
            stations := t.stations
            waits := t.waits
            lanes := t.lanes
            lots := t.lots
            chests := t.chests
            pool := t.pool
            notices := t.notices } ∧
          s.countsTentative t k (· - 1) ∧
          s.holdsChest t a n l { l with tentative := none }.settled id (c.weighedAgain g d) .secondFail (some k)
            .chestHeld) ∧
        (∀ b, s.bulk? lot.bulk = some b → lot.accepts net d → ¬ b.covers (lot.recorded net) →
          ∃ t, exec (.callGross a) s = .next t ∧
            t = { s with
              stations := t.stations
              waits := t.waits
              lanes := t.lanes
              lots := t.lots
              chests := t.chests
              pool := t.pool
              notices := t.notices } ∧
            s.countsTentative t k (· - 1) ∧
            s.holdsChest t a n l balanced id { c.weighedAgain g d with recNet := some (lot.recorded net) } .balance
              (some k) .balance))) ∧
    (∀ tare id, l.target = .hold → l.tentative = none → s.supplies l tare → s.nextRecord id → s.pool.length < 64 →
      ∃ t, exec (.callGross a) s = .next t ∧
        t = { s with
          stations := t.stations
          waits := t.waits
          lanes := t.lanes
          chests := t.chests
          pool := t.pool
          notices := t.notices } ∧
        s.holdsChest t a n l { l.letThrough with pendingTare := none } id
          (l.newChest n g tare d (.held .unassigned none) none none) .unassigned none .chestHeld)

/-- R106, R107. A gross call whose outcome lacks room is left waiting with the first kind lacking, and a wait for pool room
applies HOLD_FULL to the lane. -/
def Obligations.GrossCallWaits : Prop :=
  ∀ (s : State) (a n : Nat) (r : Reading) (l : Lane), s.weighs a r n l →
    let d := (s.station a).division
    let g := r.grams / d * d
    let waits (w : WaitKind) := ∃ t, exec (.callGross a) s = .next t ∧ s.leavesWaiting t a n l w
    (∀ k h lot, l.target = .lot k h → s.lot? k = some lot →
      (∀ tare, l.tentative = none → s.supplies l tare →
        let net := (g : Int) - tare
        (lot.planned ≤ lot.accepted + lot.tentative → waits .lot) ∧
        (∀ b, s.bulk? lot.bulk = some b → lot.accepted + lot.tentative < lot.planned → lot.accepts net d →
          (b.covers (lot.recorded net) → 16 ≤ (s.head h).queue.length → waits .queue) ∧
          (¬ b.covers (lot.recorded net) → 64 ≤ s.pool.length → waits .pool))) ∧
      (∀ id c, l.tentative = some id → s.chest? id = some c →
        let net := (g : Int) - c.tare
        (∀ f, lot.fails net d f → 64 ≤ s.pool.length → waits .pool) ∧
        (∀ b, s.bulk? lot.bulk = some b → lot.accepts net d →
          (b.covers (lot.recorded net) → 16 ≤ (s.head h).queue.length → waits .queue) ∧
          (¬ b.covers (lot.recorded net) → 64 ≤ s.pool.length → waits .pool)))) ∧
    (∀ tare, l.target = .hold → s.supplies l tare → 64 ≤ s.pool.length → waits .pool)

/-- R110, R76. CALL_TARE: the first gate that applies, and the pending tare. That a class without a window answers
TARE_OUT_OF_WINDOW is the model's reading (assumption 27). -/
def Obligations.TareCallIsTaken : Prop :=
  ∀ (s : State) (a : Nat) (r : Reading), s.part = .running → 1 ≤ a → a ≤ 14 → (s.station a).join = .active →
    (s.station a).slot = some (.tare r) →
    let v := (s.verification a).state
    let top := (s.station a).capacity
    let only (code : AnswerCode) := ∃ t, exec (.callTare a) s = .next t ∧
      t = { s with stations := t.stations, waits := t.waits } ∧ s.answersCall t a (.answer code 0)
    ((∃ p m b, v = .testing p m b) → only .testing) ∧
    (v = .at .unverified ∨ v = .at .suspended → only .notVerified) ∧
    (v.fit = true →
      ((∀ e ∈ s.lanes, e.2.scale ≠ a) → only .noLane) ∧
      ∀ n l, s.serves n l a →
        (l.state ≠ .running → only .laneHeld) ∧
        (l.state = .running → l.tareMode = .nominal → only .notWanted) ∧
        (l.state = .running → l.tareMode = .individual →
          (r.stable = false → only .unstable) ∧
          (r.stable = true → (r.overload = true ∨ top < r.grams) → only .overCapacity) ∧
          (r.stable = true → r.overload = false → r.grams ≤ top → r.underload = true → only .underload) ∧
          (r.passes top →
            let within := ∃ c lo hi, s.class? l.tareClass = some c ∧ c.window = some (lo, hi) ∧ lo ≤ r.grams ∧ r.grams ≤ hi
            (¬ within → only .tareOutOfWindow) ∧
            (within → ∃ t, exec (.callTare a) s = .next t ∧
              t = { s with stations := t.stations, waits := t.waits, lanes := t.lanes } ∧
              s.answersCall t a (.answer (if l.pendingTare = none then .tareSet else .tareReplaced) r.grams) ∧
              s.laneBecomes t n { l with pendingTare := some r.grams }))))

/-! ## Marking -/

/-- R120 to R123, R115, R12. DONE, FAULT and a timeout at a head that awaits a reply, and a reply that none awaits. -/
def Obligations.MarkOutcomeIsSettled : Prop :=
  ∀ (s : State) (a : Nat), s.part = .running → 1 ≤ a → a ≤ 14 →
    let h := s.head a
    let awaited := (h.state = .printing ∨ h.state = .pausePending) ∧ h.reply ≠ none
    let only (e : Instr) := ∃ t, exec e s = .next t ∧
      t = { s with stations := t.stations, waits := t.waits } ∧ s.answersCall t a (.answer .noMark 0)
    (∀ f, (s.station a).join = .active →
      (¬ awaited → (s.station a).slot = some .replyDone → only (.replyDone a)) ∧
      (¬ awaited → (s.station a).slot = some (.replyFault f) → only (.replyFault a))) ∧
    ∀ (j : Job) (rest : List Job) (c : Chest) (k serial bulk : Nat) (l : Lot), awaited → h.queue = j :: rest →
      s.chest? j.chest = some c → c.place = .accepted k serial bulk → s.lot? k = some l →
      let pauses := h.state == .pausePending || h.oneMark
      let completes := decide (l.state = .finishing ∧ l.outstanding ≤ 1 ∧
        ∀ e ∈ s.chests, e.2.inLot k = true → e.1 ≠ j.chest → e.2.mark = .marked)
      let chest (t : State) (m : MarkStatus) :=
        ∀ id, t.chest? id = if id = j.chest then some { c with mark := m, job := none } else s.chest? id
      let lot (t : State) (st : LotState) := ∀ i, t.lot? i =
        if i = k then some { l with outstanding := l.outstanding - 1, state := st } else s.lot? i
      let queued (i : NoticeKind) : Option Nat :=
        if i = .queueEmpty ∧ rest = [] ∨ i = .queueLow ∧ rest.length = 3 then some a else none
      let stopped (code : FaultCode) : Head :=
        { h with queue := rest, message := none, reply := none, state := .paused (.fault code), oneMark := false }
      let head (t : State) (w : Head) := ∀ b, t.head b = if b = a then w else s.head b
      ((s.station a).join = .active → (s.station a).slot = some .replyDone →
        ∃ t, exec (.replyDone a) s = .next t ∧
          t = { s with
            stations := t.stations
            waits := t.waits
            heads := t.heads
            chests := t.chests
            lots := t.lots
            notices := t.notices } ∧
          s.answersCall t a (.answer .markTaken serial) ∧ chest t .marked ∧
          lot t (if completes then .complete else l.state) ∧
          head t { h with
            queue := rest
            message := none
            reply := none
            interval := some (s.station a).markMs
            oneMark := false
            state := if pauses then .paused .host else if rest = [] then .idle else .ready } ∧
          s.raisesAs t (fun i =>
            if i = .lotComplete ∧ completes = true then some k
            else if i = .headPaused ∧ pauses = true then some a else queued i)) ∧
      (∀ f, (s.station a).join = .active → (s.station a).slot = some (.replyFault f) →
        ∃ t, exec (.replyFault a) s = .next t ∧
          t = { s with
            stations := t.stations
            waits := t.waits
            heads := t.heads
            chests := t.chests
            lots := t.lots
            notices := t.notices } ∧
          s.answersCall t a (.answer .markTaken serial) ∧ chest t .unmarked ∧ lot t l.state ∧ head t (stopped f) ∧
          s.raisesAs t (fun i => if i = .headPaused then some a else queued i)) ∧
      (h.reply = some 0 →
        ∃ t, exec (.markTimeout a) s = .next t ∧
          t = { s with heads := t.heads, chests := t.chests, lots := t.lots, notices := t.notices } ∧
          chest t .uncertain ∧ lot t l.state ∧ head t (stopped .other) ∧
          s.raisesAs t (fun i => if i = .headPaused ∨ i = .markUncertain then some a else queued i))

/-! ## The station link -/

/-- R144, R145, R147, R149, R150, R117, R152, R154. A link cycle: its number, the time and the counts, and for each station
the word that the arbiter sends and what its sending changes; a chest changes when its head dispatches it in this cycle.
The 4 ms (assumption 3), the slot that this cycle's head closes (assumptions 4, 15), and the index after word 10
(assumption 12) are the model's. -/
def Obligations.LinkCycleTurns : Prop :=
  ∀ (s : State), s.part ≠ .retain → ∃ t, exec .linkCycle s = .next t ∧
    t = { s with
      cycle := t.cycle
      linkOut := t.linkOut
      purgeTimer := t.purgeTimer
      stations := t.stations
      heads := t.heads
      verifications := t.verifications
      chests := t.chests } ∧
    (let next := match s.cycle with
      | none => 0
      | some n => (n + 1) % 65536
    t.cycle = some next ∧ t.linkOut.length = 15 ∧ t.linkOut[0]? = some (cycleHead next)) ∧
    (let later (x : Nat) := if s.cycle = none then x else x - 4
    t.purgeTimer = s.purgeTimer.map later ∧
    let turned (a : Nat) : Station :=
      { if (s.station a).slotOpen then (s.station a).afterSilence else s.station a with slotOpen := true }
    (∀ id, (∀ a j rest, 1 ≤ a → a ≤ 14 → (turned a).answers = [] → (turned a).order = none → (turned a).join = .active →
      (s.head a).state = .ready → (s.head a).interval = none → s.part = .running → (s.head a).queue = j :: rest →
      j.chest ≠ id) → t.chest? id = s.chest? id) ∧
    (∀ a, ¬ (1 ≤ a ∧ a ≤ 14) →
      t.station a = s.station a ∧ t.head a = s.head a ∧ t.verification a = s.verification a) ∧
    ∀ a, 1 ≤ a → a ≤ 14 →
      let v := turned a
      let h := { s.head a with interval := (s.head a).interval.map later, reply := (s.head a).reply.map later }
      let w := { s.verification a with state := match (s.verification a).state with
        | .at (.verified x) => .at (.verified (later x))
        | .at (.due (.running x)) => .at (.due (.running (later x)))
        | other => other }
      (∀ x rest, v.answers = x :: rest → t.linkOut[a]? = some (answerWord a x) ∧
        t.station a = { v with answers := rest } ∧ t.head a = h ∧ t.verification a = w) ∧
      (v.answers = [] →
        (v.order = some .testEnd → t.linkOut[a]? = some (orderWord a .testEnd) ∧
          t.station a = { v with order := none } ∧ t.head a = h ∧ t.verification a = w) ∧
        (∀ m, v.order = some (.test m) → t.linkOut[a]? = some (orderWord a (.test m)) ∧
          t.station a = { v with order := none } ∧ t.head a = h ∧
          (∀ st, w.state = .at st → t.verification a = w) ∧
          ∀ p g b, w.state = .testing p g b → t.verification a = { w with state := .testing p g true }) ∧
        (v.order = none → t.station a = v ∧ t.verification a = w ∧
          (h.state = .sending ∨ h.state = .pausePending →
            (∀ m, h.message = some m → h.reply = none → t.linkOut[a]? = some (markWord a m.fields m.next) ∧
              (m.next < 10 → t.head a = { h with message := some { m with next := m.next + 1 } }) ∧
              (10 ≤ m.next → t.head a = { h with
                message := some { m with next := Config.indexAfterLastWord }
                reply := some (v.printMs + 1000)
                state := if h.state = .sending then .printing else .pausePending })) ∧
            (h.message = none ∨ h.reply ≠ none → t.linkOut[a]? = some (pollWord a v.join) ∧ t.head a = h)) ∧
          (h.state = .idle ∨ h.state = .printing ∨ (∃ r, h.state = .paused r) →
            t.linkOut[a]? = some (pollWord a v.join) ∧ t.head a = h) ∧
          (h.state = .ready →
            (v.join ≠ .active ∨ h.interval ≠ none ∨ s.part ≠ .running ∨ h.queue = [] →
              t.linkOut[a]? = some (pollWord a v.join) ∧ t.head a = h) ∧
            ∀ j rest c k serial bulk l, v.join = .active → h.interval = none → s.part = .running →
              h.queue = j :: rest → s.chest? j.chest = some c → c.place = .accepted k serial bulk →
              s.lot? k = some l →
              let net := c.recNet.getD 0
              let f : MarkFields :=
                { kind := j.kind
                  serial := serial
                  garden := l.garden
                  grade := l.grade
                  invoice := l.invoice
                  printedNet := if l.overmark then net - c.sample else net
                  gross := c.gross
                  season := l.season }
              t.linkOut[a]? = some (markWord a f 0) ∧
              t.head a = { h with state := .sending, message := some { fields := f, next := 1 } } ∧
              t.chest? j.chest = some { c with mark := .inFlight }))))

/-- R145, R146, R147, R149 to R151, R153. An inbound half-slot: silence, errors, and every word but an announce page that is
admitted. The model's readings are the mark of a slot still to be judged (assumption 4), that with it clear no word is to
come in this cycle, so that the command changes nothing (assumption 18), and that the window and the inhibit count here,
while the loss of an ACTIVE station at 25 silent cycles is the event STATION_LOST (assumption 15). -/
def Obligations.InboundWordIsJudged : Prop :=
  ∀ (s : State) (a : Nat), s.part ≠ .retain → 1 ≤ a → a ≤ 14 →
    let v := s.station a
    let silent := v.afterSilence
    let heard := { v with silence := 0, slotOpen := false }
    let becomes (w : Option LinkWord) (u : Station) := ∃ t, exec (.inboundWord a w) s = .next t ∧
      t = { s with stations := t.stations } ∧ ∀ b, t.station b = if b = a then u else s.station b
    let placed (x : Answer) := if x ∈ v.answers then v.answers else v.answers ++ [x]
    (v.slotOpen = false → ∀ w, exec (.inboundWord a w) s = .next s) ∧
    (v.slotOpen = true → becomes none silent) ∧
    (∀ w, v.slotOpen = true → oddParity w = false → becomes (some w) { silent with parityErrors := min (v.parityErrors + 1) 65535 }) ∧
    (∀ w, v.slotOpen = true → oddParity w = true → wordAddress w ≠ a →
      becomes (some w) { silent with addressErrors := min (v.addressErrors + 1) 65535 }) ∧
    ∀ w i, v.slotOpen = true → oddParity w = true → wordAddress w = a → inboundOf w = i →
      (v.join = .refused → becomes (some w) { heard with answers := placed .refuse }) ∧
      ((∃ n, v.join = .lost n) → becomes (some w) silent) ∧
      (v.join = .absent ∨ (∃ n, v.join = .announcing n) ∨ v.join = .active →
        (i = .present → becomes (some w) heard.afterCycle) ∧ (i = .unknown → becomes (some w) silent)) ∧
      (v.join = .absent ∨ (∃ n, v.join = .announcing n) → ∀ c, i = .call c → becomes (some w) silent) ∧
      (v.join = .absent → ∀ x, i = .announce (.b x) ∨ i = .announce (.c x) → becomes (some w) silent) ∧
      (v.join = .active →
        (∀ p, i = .announce p → becomes (some w) silent) ∧
        ∀ c, i = .call c →
          let may := (v.kind = .scale ∧ ((∃ r, c = .gross r) ∨ (∃ r, c = .tare r) ∨ ∃ r, c = .test r)) ∨
            (v.kind = .stencil ∧ (c = .replyDone ∨ ∃ f, c = .replyFault f)) ∨
            (v.kind = .bin ∧ ((∃ q, c = .charge q) ∨ ∃ m, c = .done m))
          (¬ may → becomes (some w) { heard with answers := placed (.answer .wrongCall 0) }) ∧
          (may → v.slot ≠ none → becomes (some w) { heard with
            answers := placed (.answer .busy 0)
            busyAnswers := min (v.busyAnswers + 1) 65535 }) ∧
          (may → v.slot = none → becomes (some w) { heard with
            answers := v.answers ++ [.answer .pending 0]
            slot := some c }))

/-- R147, R148, R140. The pages of an announce, and the judgement of a completed one. The model's readings are that a BIN
whose page C is not 0 is refused (assumption 22), that an ignored page counts as heard (assumption 29), that the window
counts with the slot (assumption 15), and the mark of a slot still to be judged (assumption 4). -/
def Obligations.AnnounceIsJudged : Prop :=
  ∀ (s : State) (a : Nat) (w : LinkWord), s.part ≠ .retain → 1 ≤ a → a ≤ 14 → (s.station a).slotOpen = true →
    oddParity w = true → wordAddress w = a →
    let v := s.station a
    let heard := { v with silence := 0, slotOpen := false }
    let becomes (u : Station) := ∃ t, exec (.inboundWord a (some w)) s = .next t ∧
      t = { s with stations := t.stations } ∧ ∀ b, t.station b = if b = a then u else s.station b
    (∀ kind, v.join = .absent ∨ (∃ n, v.join = .announcing n) → inboundOf w = .announce (.a kind) →
      becomes { heard with
        join := .announcing 0
        pages := some { kind := kind, pageB := none, pageC := none } }) ∧
    ∀ n, v.join = .announcing n →
      (∀ x, inboundOf w = .announce (.b x) →
        (∀ kind, v.pages = some { kind := kind, pageB := none, pageC := none } →
          becomes { heard with pages := some { kind := kind, pageB := some x, pageC := none } }.afterCycle) ∧
        ((∀ kind, v.pages ≠ some { kind := kind, pageB := none, pageC := none }) → becomes heard.afterCycle)) ∧
      (∀ x, inboundOf w = .announce (.c x) →
        ((∀ kind b, v.pages ≠ some { kind := kind, pageB := some b, pageC := none }) → becomes heard.afterCycle) ∧
        ∀ kind b, v.pages = some { kind := kind, pageB := some b, pageC := none } →
          let paged := { heard with pages := some { kind := kind, pageB := some b, pageC := some x } }
          let scale := v.kind = .scale ∧ kind = .scale ∧
            (b = 1 ∨ b = 2 ∨ b = 5 ∨ b = 10 ∨ b = 20 ∨ b = 50 ∨ b = 100 ∨ b = 200) ∧ 1000 ≤ x ∧ x ≤ 250000
          let stencil := v.kind = .stencil ∧ kind = .stencil ∧ 100 ≤ b ∧ b ≤ 5000 ∧ 200 ≤ x ∧ x ≤ 10000
          let bin := v.kind = .bin ∧ kind = .bin ∧ 1000 ≤ b ∧ b ≤ 500000 ∧ x = 0
          (stencil ∨ bin ∨ scale → ∃ t, exec (.inboundWord a (some w)) s = .next t ∧
            t = { s with stations := t.stations, verifications := t.verifications } ∧
            (∀ c, t.station c = if c = a then { paged with
                join := .active
                abilities := some (match kind with
                  | .stencil => .stencil b (max x v.interval)
                  | .bin => .bin b
                  | _ => .scale b x) }
              else s.station c) ∧
            ∀ c, t.verification c =
              if c = a ∧ kind = .scale ∧ (s.verification a).state.fit = true ∧ (s.verification a).abilities ≠ some (b, x)
              then { s.verification a with state := .at .unverified, abilities := none } else s.verification c) ∧
          (¬ scale → ¬ stencil → ¬ bin → ∃ t, exec (.inboundWord a (some w)) s = .next t ∧
            t = { s with stations := t.stations, notices := t.notices } ∧
            (∀ c, t.station c = if c = a then { paged with join := .refused, abilities := none } else s.station c) ∧
            s.raisesAs t (fun j => if j = .stationRefused then some a else none)))

/-- R150, R58, R80, R83, R109, R124, R140. The loss of an ACTIVE station: its entry, and the work in flight that each block
settles. LANE_HELD is raised for each lane that becomes HELD; which of several is its last source is left open
(assumption 16). -/
def Obligations.StationIsLost : Prop :=
  ∀ (s : State) (a : Nat), s.part ≠ .retain → 1 ≤ a → a ≤ 14 → (s.station a).join = .active → 25 ≤ (s.station a).silence →
    s.canonical = true → (∀ n l, s.lane? n = some l → 1 ≤ n ∧ n ≤ 8) →
    let h := s.head a
    let v := s.verification a
    let hit (l : Lane) : Option LaneHold := if l.scale = a then some .scaleAbsent
      else match l.target with
        | .lot _ u => if u = a then some .headAbsent else none
        | .hold => none
    let busy (l : Lane) : Bool := l.tentative.isSome || (l.scale != a && s.wait l.scale != .none)
    let after (l : Lane) : Lane := match l.state, hit l with
      | .running, some u =>
        if busy l then { l with state := .holdPending u, oneShot := false }
        else { l with state := .held u, oneShot := false }
      | .holdPending u, some .scaleAbsent => if l.tentative = none then { l with state := .held u } else l
      | _, _ => l
    ∃ t, exec (.stationLost a) s = .next t ∧
      t = { s with
        stations := t.stations
        waits := t.waits
        bulks := t.bulks
        heads := t.heads
        chests := t.chests
        verifications := t.verifications
        lanes := t.lanes
        notices := t.notices } ∧
      (∀ b, t.station b = if b = a then { s.station a with
          join := .lost 0
          lostSinceRead := true
          losses := min ((s.station a).losses + 1) 65535
          slot := none
          answers := []
          order := none }
        else s.station b) ∧
      (∀ b, t.wait b = if b = a then .none else s.wait b) ∧
      (∀ b, t.verification b = if b = a ∧ v.state.isTesting = true
        then { v with state := .at .unverified, abilities := none } else s.verification b) ∧
      (∀ b, t.head b = if b = a ∧ h.message.isSome
        then { h with message := none, reply := none, state := .paused .lost, oneMark := false } else s.head b) ∧
      (∀ id, t.chest? id = if h.message.isSome ∧ (h.queue.head?.map Job.chest) = some id
        then (s.chest? id).map (fun c => { c with mark := .uncertain }) else s.chest? id) ∧
      (∀ k, t.bulk? k = if (s.bulkOf a).map (·.1) = some k
        then (s.bulk? k).map (fun b => { b with components := b.components.map (fun c =>
          match c.claim with
          | .grant g => if c.bin = a then { c with claim := .uncertain g } else c
          | .none => c
          | .uncertain _ => c) })
        else s.bulk? k) ∧
      (∀ n, t.lane? n = (s.lane? n).map after) ∧
      (∀ k, k ≠ .stationLost → k ≠ .chargeUncertain → k ≠ .markUncertain → k ≠ .laneHeld → t.notice k = s.notice k) ∧
      s.raisesAmong t .laneHeld (laneNumbers.filter (fun n => (s.lane? n).any (fun l =>
        !l.state.isHeld && (after l).state.isHeld))) ∧
      t.notice .stationLost = (s.notice .stationLost).raised (some a) ∧
      t.notice .markUncertain =
        (if h.message.isSome then (s.notice .markUncertain).raised (some a) else s.notice .markUncertain) ∧
      t.notice .chargeUncertain = (match s.bulkOf a with
        | some (k, b) => if b.components.any (fun c => c.bin == a && c.granted)
          then (s.notice .chargeUncertain).raised (some k) else s.notice .chargeUncertain
        | none => s.notice .chargeUncertain)

/-! ## What is read is what was sent -/

/-- R183 to R185, R118, R144. The parameters that a host sends, and the words that a station sends, are read as they were
sent, for every value that their layout can hold; and each word that the part sends has odd parity and carries its address,
its kind and its payload. The model's readings are a form byte out of range with any bytes after it (assumption 11), the
component number in one byte (assumption 35), and the place of the characters in mark words 1 to 6 (assumption 34). -/
def Obligations.SentIsRead : Prop :=
  (∀ p : SetStationParams, p.station < 256 → p.kind < 256 → p.interval < 65536 → readSetStation p.bytes = some p) ∧
  (∀ p : TareClassParams, p.number < 256 → p.nominal < 65536 → p.spread < 65536 →
    (p.window = some none ∨ ∃ lo hi, p.window = some (some (lo, hi)) ∧ lo < 65536 ∧ hi < 65536) →
    readSetTareClass p.bytes = some p) ∧
  (∀ p : OpenBulkParams, p.slot < 256 → p.number < 65536 → p.grade.length < 256 → -2147483648 ≤ p.planned →
    p.planned < 2147483648 → p.allowance < 65536 → p.components.length < 256 →
    (∀ c ∈ p.components, c.bin < 256 ∧ c.source.length < 256 ∧ c.minShare < 65536 ∧ c.maxShare < 65536) →
    readOpenBulk p.bytes = some p) ∧
  (∀ p : SettleParams, p.slot < 256 → p.component < 256 → -2147483648 ≤ p.mass → p.mass < 2147483648 →
    readSettle p.bytes = some p) ∧
  (∀ p : OpenLotParams, p.slot < 256 → p.invoice < 4294967296 → p.garden.length < 256 → p.grade.length < 256 →
    p.season < 256 → p.bulk < 256 → p.tareClass < 256 → -2147483648 ≤ p.declNet → p.declNet < 2147483648 →
    p.step < 65536 → p.margin < 65536 → p.planned < 256 → p.sampleLimit < 65536 → p.overmark < 256 →
    readOpenLot p.bytes = some p) ∧
  (∀ p : SampleParams, p.slot < 256 → p.serial < 256 → p.mass < 65536 → p.head < 256 → readSample p.bytes = some p) ∧
  (∀ p : MapLaneParams, p.lane < 256 → p.target < 256 → p.scale < 256 → p.tareMode < 256 → p.watch < 256 →
    (p.stencil = some none ∨ ∃ x, p.stencil = some (some x) ∧ x < 256) →
    (p.tareClass = some none ∨ ∃ x, p.tareClass = some (some x) ∧ x < 256) → readMapLane p.bytes = some p) ∧
  (∀ p : ReleaseParams, p.lane < 256 → p.one < 256 → p.watch < 256 → readRelease p.bytes = some p) ∧
  (∀ p : AssignParams, p.chest < 65536 → p.slot < 256 → p.head < 256 → readAssign p.bytes = some p) ∧
  (∀ p : ReprintParams, p.chest < 65536 → p.head < 256 → readReprint p.bytes = some p) ∧
  (∀ p : SetVerifyParams, p.station < 256 → p.period < 65536 → p.grace < 256 → p.action < 256 → p.tolerance < 65536 →
    readSetVerify p.bytes = some p) ∧
  (∀ p : VerifyParams, p.station < 256 → -2147483648 ≤ p.mass → p.mass < 2147483648 → readVerify p.bytes = some p) ∧
  (∀ n, n < 256 → readOne [byte n] = some n) ∧ (∀ m n, m < 256 → n < 256 → readPair [byte m, byte n] = some (m, n)) ∧
  (∀ n, n < 65536 → readChestId (be 2 n) = some n) ∧ (∀ n, n < 16777216 → readNoticeSet (be 3 n) = some n) ∧
  readNone [] = some () ∧
  (∀ width, width = 2 ∨ width = 4 →
    (∀ n, n < 256 → readNamed width ((Named.slot n).bytes width) = some (.slot n)) ∧
    (∀ n, n < 256 ^ width → readNamed width ((Named.number n).bytes width) = some (.number n)) ∧
    ∀ form rest, 2 ≤ form → form < 256 → readNamed width (byte form :: rest) = some .bad) ∧
  (∀ n, n < 65536 → readChestName (ChestName.id n).bytes = some (.id n)) ∧
  (∀ k n, k < 256 → n < 256 → readChestName (ChestName.serial k n).bytes = some (.serial k n)) ∧
  (∀ n, n < 256 → readChestName (ChestName.position n).bytes = some (.position n)) ∧
  (∀ form rest, 3 ≤ form → form < 256 → readChestName (byte form :: rest) = some .bad) ∧
  (∀ n, n < 65536 → carries (cycleHead n) 0 15 n) ∧
  answerCodes.map AnswerCode.code = List.range 28 ∧ (∀ c : AnswerCode, c ∈ answerCodes) ∧
  (∀ a, a < 16 →
    (∀ j, carries (pollWord a j) a 0 (match j with
      | .absent => 0
      | .announcing _ => 1
      | .active => 2
      | .refused => 3
      | .lost _ => 4)) ∧
    (∀ c n, n < 65536 → carries (answerWord a (.answer c n)) a 1 (c.code * 65536 + n)) ∧
    (∀ m, m < 524288 → carries (answerWord a (.grant m)) a 2 m) ∧ carries (answerWord a .refuse) a 5 0 ∧
    (∀ m, m < 131072 → carries (orderWord a (.test m)) a 3 m) ∧ carries (orderWord a .testEnd) a 3 4194304 ∧
    ∀ (f : MarkFields) (i : Nat), f.serial < 128 → f.invoice < 1048576 → f.printedNet < 524288 → f.gross < 524288 →
      f.season < 128 → (∀ b ∈ f.garden ++ f.grade, b ∈ characters) → i ≤ 10 →
      carries (markWord a f i) a 4 (i * 524288 + match i with
        | 0 => (match f.kind with
            | .first => 0
            | .reprint => 131072
            | .overmark => 262144) + f.serial * 1024 + f.invoice / 524288
        | 1 => threeCodes f.garden 0
        | 2 => threeCodes f.garden 3
        | 3 => threeCodes f.garden 6
        | 4 => threeCodes f.garden 9
        | 5 => threeCodes f.grade 0
        | 6 => threeCodes f.grade 3
        | 7 => f.invoice % 524288
        | 8 => f.printedNet
        | 9 => f.gross
        | _ => f.season)) ∧
  (∀ a k p, a < 16 → k < 16 → p < 8388608 → oddParity (linkWord a k p) = true ∧ wordAddress (linkWord a k p) = a ∧
    wordKind (linkWord a k p) = k ∧ wordPayload (linkWord a k p) = p) ∧
  ∀ a i, a < 16 →
    (∀ n, i = .announce (.b n) ∨ i = .announce (.c n) ∨ i = .call (.charge n) ∨ i = .call (.done n) → n < 524288) →
    (∀ r, i = .call (.gross r) ∨ i = .call (.tare r) ∨ i = .call (.test r) → r.grams < 262144) →
    oddParity (i.word a) = true ∧ wordAddress (i.word a) = a ∧ inboundOf (i.word a) = i

/-! ## Laws that every command keeps -/

/-- R49, R62, R63. In every bulk K stays the sum of the charged masses, and W stays within the balance limit. -/
def Obligations.StepKeepsBulksBalanced : Prop := ∀ s t : State, s.bulksBalance → step s = .next t → t.bulksBalance

/-- R5, R7, R97. Every accepted chest's recorded net stays between its lot's D and D + U and a multiple of its r. -/
def Obligations.StepKeepsNetsInBand : Prop := ∀ s t : State, s.netsInBand → step s = .next t → t.netsInBand

/-- R34, R72, R113; R4, R8, R11, R37. The pool and the queues stay within their capacity, and no two lanes name one scale.
The commitments stay within the budget of 1984, no chest has two jobs, and the counts of the lots agree with the chests,
the lanes and the queues that they count. -/
def Obligations.StepKeepsCapacities : Prop :=
  (∀ s t : State, s.withinCapacity ∧ s.oneLanePerScale → step s = .next t → t.withinCapacity ∧ t.oneLanePerScale) ∧
  ∀ s t : State, s.recordsAgree → step s = .next t → t.recordsAgree

/-- The part after reset keeps the laws. -/
def Obligations.ResetKeepsLaws : Prop :=
  State.reset.canonical = true ∧ State.reset.bulksBalance ∧ State.reset.netsInBand ∧ State.reset.withinCapacity ∧
    State.reset.oneLanePerScale ∧ State.reset.recordsAgree

end Statements
end

