-- ==== Sys2Proof/Laws/Table.lean ====
section
/-! SUPPORT. What reading a table gives after each write, and that each write keeps the canonical form. The reading laws
need no canonical form. -/

namespace Sys2Proof.Machine

variable {α : Type}

/-! ## Reading after a write -/

@[simp] theorem Table.get?_nil (i : Nat) : Table.get? ([] : Table α) i = none := rfl

theorem Table.get?_cons (k : Nat) (v : α) (m : Table α) (i : Nat) :
    Table.get? ((k, v) :: m) i = if k = i then some v else Table.get? m i := rfl

theorem Table.get?_filter_key (p : Nat → Bool) (m : Table α) (i : Nat) :
    Table.get? (m.filter (fun e => p e.1)) i = if p i then Table.get? m i else none := by
  induction m with
  | nil => simp
  | cons e m ih =>
    obtain ⟨k, v⟩ := e
    by_cases h : p k
    · by_cases hk : k = i
      · subst hk; simp [List.filter, h, Table.get?_cons]
      · simp [List.filter, h, Table.get?_cons, hk, ih]
    · by_cases hk : k = i
      · subst hk; simp [List.filter, h, ih]
      · simp [List.filter, h, Table.get?_cons, hk, ih]

theorem Table.get?_erase (m : Table α) (i j : Nat) :
    (Table.erase m i).get? j = if j = i then none else m.get? j := by
  have h := Table.get?_filter_key (fun k => k != i) m j
  rw [Table.erase, h]
  by_cases hj : j = i <;> simp [hj]

theorem Table.get?_insert_ne (m : Table α) (i j : Nat) (v : α) (h : j ≠ i) :
    (Table.insert m i v).get? j = m.get? j := by
  induction m with
  | nil => simp [Table.insert, Table.get?_cons, Ne.symm h]
  | cons e m ih =>
    obtain ⟨k, w⟩ := e
    simp only [Table.insert]
    split
    · simp [Table.get?_cons, Ne.symm h]
    · simp [Table.get?_cons, ih]

theorem Table.get?_insert_self (m : Table α) (i : Nat) (v : α) (h : m.get? i = none) :
    (Table.insert m i v).get? i = some v := by
  induction m with
  | nil => simp [Table.insert, Table.get?_cons]
  | cons e m ih =>
    obtain ⟨k, w⟩ := e
    simp only [Table.get?_cons] at h
    by_cases hk : k = i
    · simp [hk] at h
    · simp only [hk, if_false] at h
      simp only [Table.insert]
      split
      · simp [Table.get?_cons]
      · simp [Table.get?_cons, hk, ih h]

theorem Table.get?_put (m : Table α) (i j : Nat) (o : Option α) :
    (m.put i o).get? j = if j = i then o else m.get? j := by
  cases o with
  | none => exact Table.get?_erase m i j
  | some v =>
    by_cases h : j = i
    · subst h
      simp only [Table.put, if_true]
      exact Table.get?_insert_self _ _ _ (by simp [Table.get?_erase])
    · simp only [Table.put, h, if_false]
      rw [Table.get?_insert_ne _ _ _ _ h, Table.get?_erase]; simp [h]

@[simp] theorem Table.get?_put_self (m : Table α) (i : Nat) (o : Option α) : (m.put i o).get? i = o := by
  simp [Table.get?_put]

theorem Table.get?_put_ne (m : Table α) (i j : Nat) (o : Option α) (h : j ≠ i) : (m.put i o).get? j = m.get? j := by
  simp [Table.get?_put, h]

theorem Table.get?_modify (m : Table α) (i j : Nat) (f : α → α) :
    (m.modify i f).get? j = if j = i then (m.get? i).map f else m.get? j := by
  unfold Table.modify
  split
  · next v h => rw [Table.get?_put]; by_cases hj : j = i <;> simp [hj, h]
  · next h => by_cases hj : j = i <;> simp [hj, h]

@[simp] theorem Table.get?_modify_self (m : Table α) (i : Nat) (f : α → α) :
    (m.modify i f).get? i = (m.get? i).map f := by simp [Table.get?_modify]

theorem Table.get?_modify_ne (m : Table α) (i j : Nat) (f : α → α) (h : j ≠ i) :
    (m.modify i f).get? j = m.get? j := by simp [Table.get?_modify, h]

theorem Table.getD_setD [DecidableEq α] (d : α) (m : Table α) (i j : Nat) (v : α) :
    (m.setD d i v).getD d j = if j = i then v else m.getD d j := by
  unfold Table.getD Table.setD
  rw [Table.get?_put]
  by_cases hj : j = i
  · by_cases hv : v = d <;> simp [hj, hv]
  · simp [hj]

@[simp] theorem Table.getD_setD_self [DecidableEq α] (d : α) (m : Table α) (i : Nat) (v : α) :
    (m.setD d i v).getD d i = v := by simp [Table.getD_setD]

theorem Table.getD_setD_ne [DecidableEq α] (d : α) (m : Table α) (i j : Nat) (v : α) (h : j ≠ i) :
    (m.setD d i v).getD d j = m.getD d j := by simp [Table.getD_setD, h]

theorem Table.get?_mapVals (f : Nat → α → α) (m : Table α) (i : Nat) :
    (m.mapVals f).get? i = (m.get? i).map (f i) := by
  unfold Table.mapVals
  induction m with
  | nil => simp
  | cons e m ih =>
    obtain ⟨k, v⟩ := e
    simp only [List.map_cons, Table.get?_cons]
    by_cases hk : k = i
    · subst hk; simp
    · simp [hk, ih]

theorem Table.get?_mem {m : Table α} {i : Nat} {v : α} (h : m.get? i = some v) : (i, v) ∈ m := by
  induction m with
  | nil => simp at h
  | cons e m ih =>
    obtain ⟨k, w⟩ := e
    simp only [Table.get?_cons] at h
    split at h
    · next hk => subst hk; simp at h; simp [h]
    · exact List.mem_cons_of_mem _ (ih h)

theorem Table.find_some {m : Table α} {p : Nat → α → Bool} {i : Nat} {v : α} (h : m.find p = some (i, v)) :
    (i, v) ∈ m ∧ p i v = true := by
  induction m with
  | nil => simp [Table.find] at h
  | cons e m ih =>
    obtain ⟨k, w⟩ := e
    simp only [Table.find] at h
    split at h
    · next hp => simp at h; obtain ⟨rfl, rfl⟩ := h; exact ⟨by simp, hp⟩
    · exact ⟨List.mem_cons_of_mem _ (ih h).1, (ih h).2⟩

theorem Table.find_none {m : Table α} {p : Nat → α → Bool} (h : m.find p = none) :
    ∀ e ∈ m, p e.1 e.2 = false := by
  induction m with
  | nil => simp
  | cons e m ih =>
    obtain ⟨k, w⟩ := e
    simp only [Table.find] at h
    split at h
    · simp at h
    · next hp =>
      intro e he
      rcases List.mem_cons.mp he with rfl | he
      · simpa using hp
      · exact ih h e he

/-! ## The canonical form -/

theorem Table.sorted_cons (k : Nat) (v : α) (m : Table α) :
    Table.sorted ((k, v) :: m) = true ↔ (∀ e ∈ m, k < e.1) ∧ m.sorted = true := by
  simp [Table.sorted, List.all_eq_true]

theorem Table.sorted_filter {m : Table α} (p : Nat × α → Bool) (h : m.sorted = true) :
    Table.sorted (m.filter p) = true := by
  induction m with
  | nil => simp [Table.sorted]
  | cons e m ih =>
    obtain ⟨k, v⟩ := e
    rw [Table.sorted_cons] at h
    by_cases hp : p (k, v)
    · simp only [List.filter, hp]
      rw [Table.sorted_cons]
      exact ⟨fun e he => h.1 e (List.mem_filter.mp he).1, ih h.2⟩
    · simp only [List.filter, hp]
      exact ih h.2

theorem Table.mem_insert {m : Table α} {i : Nat} {v : α} {e : Nat × α} :
    e ∈ Table.insert m i v ↔ e = (i, v) ∨ e ∈ m := by
  induction m with
  | nil => simp [Table.insert]
  | cons x m ih =>
    obtain ⟨k, w⟩ := x
    simp only [Table.insert]
    split
    · simp
    · simp only [List.mem_cons, ih]; tauto

theorem Table.sorted_insert {m : Table α} (i : Nat) (v : α) (h : m.sorted = true) (hi : ∀ e ∈ m, e.1 ≠ i) :
    (Table.insert m i v).sorted = true := by
  induction m with
  | nil => simp [Table.insert, Table.sorted]
  | cons x m ih =>
    obtain ⟨k, w⟩ := x
    have h' := (Table.sorted_cons k w m).mp h
    simp only [Table.insert]
    split
    · next hk =>
      rw [Table.sorted_cons]
      refine ⟨?_, h⟩
      intro e he
      rcases List.mem_cons.mp he with rfl | he
      · exact hk
      · exact Nat.lt_trans hk (h'.1 e he)
    · next hk =>
      rw [Table.sorted_cons]
      refine ⟨?_, ih h'.2 (fun e he => hi e (List.mem_cons_of_mem _ he))⟩
      intro e he
      rcases Table.mem_insert.mp he with rfl | he
      · have := hi (k, w) (by simp); simp only at this ⊢; omega
      · exact h'.1 e he

theorem Table.erase_ne {m : Table α} {i : Nat} : ∀ e ∈ Table.erase m i, e.1 ≠ i := by
  intro e he
  have := (List.mem_filter.mp he).2
  simpa using this

theorem Table.sorted_put {m : Table α} (i : Nat) (o : Option α) (h : m.sorted = true) : (m.put i o).sorted = true := by
  cases o with
  | none => exact Table.sorted_filter _ h
  | some v => exact Table.sorted_insert _ _ (Table.sorted_filter _ h) Table.erase_ne

theorem Table.sorted_modify {m : Table α} (i : Nat) (f : α → α) (h : m.sorted = true) :
    (m.modify i f).sorted = true := by
  unfold Table.modify
  split
  · exact Table.sorted_put _ _ h
  · exact h

theorem Table.sorted_mapVals {m : Table α} (f : Nat → α → α) (h : m.sorted = true) : (m.mapVals f).sorted = true := by
  induction m with
  | nil => rfl
  | cons x m ih =>
    obtain ⟨k, v⟩ := x
    rw [Table.sorted_cons] at h
    simp only [Table.mapVals, List.map_cons]
    rw [Table.sorted_cons]
    refine ⟨?_, ih h.2⟩
    intro e he
    obtain ⟨y, hy, rfl⟩ := List.mem_map.mp he
    exact h.1 y hy

theorem Table.canonical_iff [DecidableEq α] (d : α) (m : Table α) :
    m.canonical d = true ↔ m.sorted = true ∧ ∀ e ∈ m, e.2 ≠ d := by
  simp [Table.canonical, List.all_eq_true]

theorem Table.canonical_setD [DecidableEq α] (d : α) {m : Table α} (i : Nat) (v : α) (h : m.canonical d = true) :
    (m.setD d i v).canonical d = true := by
  rw [Table.canonical_iff] at h ⊢
  refine ⟨Table.sorted_put _ _ h.1, ?_⟩
  unfold Table.setD
  split
  · exact fun e he => h.2 e (List.mem_filter.mp he).1
  · next hv =>
    intro e he
    rcases Table.mem_insert.mp he with rfl | he
    · exact hv
    · exact h.2 e (List.mem_filter.mp he).1

/-- In a sorted table every entry is the one that reading its number gives. -/
theorem Table.get?_of_mem {m : Table α} {i : Nat} {v : α} (h : m.sorted = true) (hm : (i, v) ∈ m) :
    m.get? i = some v := by
  induction m with
  | nil => simp at hm
  | cons x m ih =>
    obtain ⟨k, w⟩ := x
    rw [Table.sorted_cons] at h
    rcases List.mem_cons.mp hm with he | he
    · obtain ⟨rfl, rfl⟩ := Prod.mk.inj he; simp [Table.get?_cons]
    · have := h.1 _ he
      have hk : k ≠ i := by simp only at this; omega
      simp [Table.get?_cons, hk, ih h.2 he]

end Sys2Proof.Machine
end

