-- ==== Sys2Proof/Laws/State.lean ====
section
/-! SUPPORT. One lemma for each field and each reader of State under each named write: a write changes its own table and
nothing else, and its own table reads as written. -/

namespace Sys2Proof.Machine

variable (s : State)

/-! ## setLot -/

@[simp] theorem State.setLot_pending (k : Nat) (o : Option Lot) : (s.setLot k o).pending = s.pending := rfl
@[simp] theorem State.setLot_part (k : Nat) (o : Option Lot) : (s.setLot k o).part = s.part := rfl
@[simp] theorem State.setLot_purgeTimer (k : Nat) (o : Option Lot) : (s.setLot k o).purgeTimer = s.purgeTimer := rfl
@[simp] theorem State.setLot_noticesAtPurge (k : Nat) (o : Option Lot) : (s.setLot k o).noticesAtPurge = s.noticesAtPurge := rfl
@[simp] theorem State.setLot_marker (k : Nat) (o : Option Lot) : (s.setLot k o).marker = s.marker := rfl
@[simp] theorem State.setLot_restartKind (k : Nat) (o : Option Lot) : (s.setLot k o).restartKind = s.restartKind := rfl
@[simp] theorem State.setLot_restartCause (k : Nat) (o : Option Lot) : (s.setLot k o).restartCause = s.restartCause := rfl
@[simp] theorem State.setLot_purgeFinished (k : Nat) (o : Option Lot) : (s.setLot k o).purgeFinished = s.purgeFinished := rfl
@[simp] theorem State.setLot_pwrgood (k : Nat) (o : Option Lot) : (s.setLot k o).pwrgood = s.pwrgood := rfl
@[simp] theorem State.setLot_resetAsserted (k : Nat) (o : Option Lot) : (s.setLot k o).resetAsserted = s.resetAsserted := rfl
@[simp] theorem State.setLot_buffer (k : Nat) (o : Option Lot) : (s.setLot k o).buffer = s.buffer := rfl
@[simp] theorem State.setLot_sdo (k : Nat) (o : Option Lot) : (s.setLot k o).sdo = s.sdo := rfl
@[simp] theorem State.setLot_notices (k : Nat) (o : Option Lot) : (s.setLot k o).notices = s.notices := rfl
@[simp] theorem State.setLot_cycle (k : Nat) (o : Option Lot) : (s.setLot k o).cycle = s.cycle := rfl
@[simp] theorem State.setLot_linkOut (k : Nat) (o : Option Lot) : (s.setLot k o).linkOut = s.linkOut := rfl
@[simp] theorem State.setLot_stations (k : Nat) (o : Option Lot) : (s.setLot k o).stations = s.stations := rfl
@[simp] theorem State.setLot_verifications (k : Nat) (o : Option Lot) : (s.setLot k o).verifications = s.verifications := rfl
@[simp] theorem State.setLot_heads (k : Nat) (o : Option Lot) : (s.setLot k o).heads = s.heads := rfl
@[simp] theorem State.setLot_waits (k : Nat) (o : Option Lot) : (s.setLot k o).waits = s.waits := rfl
@[simp] theorem State.setLot_lanes (k : Nat) (o : Option Lot) : (s.setLot k o).lanes = s.lanes := rfl
@[simp] theorem State.setLot_classes (k : Nat) (o : Option Lot) : (s.setLot k o).classes = s.classes := rfl
@[simp] theorem State.setLot_bulks (k : Nat) (o : Option Lot) : (s.setLot k o).bulks = s.bulks := rfl
@[simp] theorem State.setLot_chests (k : Nat) (o : Option Lot) : (s.setLot k o).chests = s.chests := rfl
@[simp] theorem State.setLot_pool (k : Nat) (o : Option Lot) : (s.setLot k o).pool = s.pool := rfl
@[simp] theorem State.setLot_classOf (k : Nat) (o : Option Lot) (x : Nat) : (s.setLot k o).class? x = s.class? x := rfl
@[simp] theorem State.setLot_bulkOf (k : Nat) (o : Option Lot) (x : Nat) : (s.setLot k o).bulk? x = s.bulk? x := rfl
@[simp] theorem State.setLot_laneOf (k : Nat) (o : Option Lot) (x : Nat) : (s.setLot k o).lane? x = s.lane? x := rfl
@[simp] theorem State.setLot_chestOf (k : Nat) (o : Option Lot) (x : Nat) : (s.setLot k o).chest? x = s.chest? x := rfl
@[simp] theorem State.setLot_station (k : Nat) (o : Option Lot) (x : Nat) : (s.setLot k o).station x = s.station x := rfl
@[simp] theorem State.setLot_verification (k : Nat) (o : Option Lot) (x : Nat) : (s.setLot k o).verification x = s.verification x := rfl
@[simp] theorem State.setLot_head (k : Nat) (o : Option Lot) (x : Nat) : (s.setLot k o).head x = s.head x := rfl
@[simp] theorem State.setLot_wait (k : Nat) (o : Option Lot) (x : Nat) : (s.setLot k o).wait x = s.wait x := rfl
@[simp] theorem State.setLot_notice (k : Nat) (o : Option Lot) (x : NoticeKind) : (s.setLot k o).notice x = s.notice x := rfl
@[simp] theorem State.setLot_classD (k : Nat) (o : Option Lot) (x : Nat) : (s.setLot k o).classD x = s.classD x := rfl
@[simp] theorem State.setLot_bulkD (k : Nat) (o : Option Lot) (x : Nat) : (s.setLot k o).bulkD x = s.bulkD x := rfl
@[simp] theorem State.setLot_laneD (k : Nat) (o : Option Lot) (x : Nat) : (s.setLot k o).laneD x = s.laneD x := rfl
@[simp] theorem State.setLot_chestD (k : Nat) (o : Option Lot) (x : Nat) : (s.setLot k o).chestD x = s.chestD x := rfl

/-! ## modLot -/

@[simp] theorem State.modLot_pending (k : Nat) (f : Lot → Lot) : (s.modLot k f).pending = s.pending := rfl
@[simp] theorem State.modLot_part (k : Nat) (f : Lot → Lot) : (s.modLot k f).part = s.part := rfl
@[simp] theorem State.modLot_purgeTimer (k : Nat) (f : Lot → Lot) : (s.modLot k f).purgeTimer = s.purgeTimer := rfl
@[simp] theorem State.modLot_noticesAtPurge (k : Nat) (f : Lot → Lot) : (s.modLot k f).noticesAtPurge = s.noticesAtPurge := rfl
@[simp] theorem State.modLot_marker (k : Nat) (f : Lot → Lot) : (s.modLot k f).marker = s.marker := rfl
@[simp] theorem State.modLot_restartKind (k : Nat) (f : Lot → Lot) : (s.modLot k f).restartKind = s.restartKind := rfl
@[simp] theorem State.modLot_restartCause (k : Nat) (f : Lot → Lot) : (s.modLot k f).restartCause = s.restartCause := rfl
@[simp] theorem State.modLot_purgeFinished (k : Nat) (f : Lot → Lot) : (s.modLot k f).purgeFinished = s.purgeFinished := rfl
@[simp] theorem State.modLot_pwrgood (k : Nat) (f : Lot → Lot) : (s.modLot k f).pwrgood = s.pwrgood := rfl
@[simp] theorem State.modLot_resetAsserted (k : Nat) (f : Lot → Lot) : (s.modLot k f).resetAsserted = s.resetAsserted := rfl
@[simp] theorem State.modLot_buffer (k : Nat) (f : Lot → Lot) : (s.modLot k f).buffer = s.buffer := rfl
@[simp] theorem State.modLot_sdo (k : Nat) (f : Lot → Lot) : (s.modLot k f).sdo = s.sdo := rfl
@[simp] theorem State.modLot_notices (k : Nat) (f : Lot → Lot) : (s.modLot k f).notices = s.notices := rfl
@[simp] theorem State.modLot_cycle (k : Nat) (f : Lot → Lot) : (s.modLot k f).cycle = s.cycle := rfl
@[simp] theorem State.modLot_linkOut (k : Nat) (f : Lot → Lot) : (s.modLot k f).linkOut = s.linkOut := rfl
@[simp] theorem State.modLot_stations (k : Nat) (f : Lot → Lot) : (s.modLot k f).stations = s.stations := rfl
@[simp] theorem State.modLot_verifications (k : Nat) (f : Lot → Lot) : (s.modLot k f).verifications = s.verifications := rfl
@[simp] theorem State.modLot_heads (k : Nat) (f : Lot → Lot) : (s.modLot k f).heads = s.heads := rfl
@[simp] theorem State.modLot_waits (k : Nat) (f : Lot → Lot) : (s.modLot k f).waits = s.waits := rfl
@[simp] theorem State.modLot_lanes (k : Nat) (f : Lot → Lot) : (s.modLot k f).lanes = s.lanes := rfl
@[simp] theorem State.modLot_classes (k : Nat) (f : Lot → Lot) : (s.modLot k f).classes = s.classes := rfl
@[simp] theorem State.modLot_bulks (k : Nat) (f : Lot → Lot) : (s.modLot k f).bulks = s.bulks := rfl
@[simp] theorem State.modLot_chests (k : Nat) (f : Lot → Lot) : (s.modLot k f).chests = s.chests := rfl
@[simp] theorem State.modLot_pool (k : Nat) (f : Lot → Lot) : (s.modLot k f).pool = s.pool := rfl
@[simp] theorem State.modLot_classOf (k : Nat) (f : Lot → Lot) (x : Nat) : (s.modLot k f).class? x = s.class? x := rfl
@[simp] theorem State.modLot_bulkOf (k : Nat) (f : Lot → Lot) (x : Nat) : (s.modLot k f).bulk? x = s.bulk? x := rfl
@[simp] theorem State.modLot_laneOf (k : Nat) (f : Lot → Lot) (x : Nat) : (s.modLot k f).lane? x = s.lane? x := rfl
@[simp] theorem State.modLot_chestOf (k : Nat) (f : Lot → Lot) (x : Nat) : (s.modLot k f).chest? x = s.chest? x := rfl
@[simp] theorem State.modLot_station (k : Nat) (f : Lot → Lot) (x : Nat) : (s.modLot k f).station x = s.station x := rfl
@[simp] theorem State.modLot_verification (k : Nat) (f : Lot → Lot) (x : Nat) : (s.modLot k f).verification x = s.verification x := rfl
@[simp] theorem State.modLot_head (k : Nat) (f : Lot → Lot) (x : Nat) : (s.modLot k f).head x = s.head x := rfl
@[simp] theorem State.modLot_wait (k : Nat) (f : Lot → Lot) (x : Nat) : (s.modLot k f).wait x = s.wait x := rfl
@[simp] theorem State.modLot_notice (k : Nat) (f : Lot → Lot) (x : NoticeKind) : (s.modLot k f).notice x = s.notice x := rfl
@[simp] theorem State.modLot_classD (k : Nat) (f : Lot → Lot) (x : Nat) : (s.modLot k f).classD x = s.classD x := rfl
@[simp] theorem State.modLot_bulkD (k : Nat) (f : Lot → Lot) (x : Nat) : (s.modLot k f).bulkD x = s.bulkD x := rfl
@[simp] theorem State.modLot_laneD (k : Nat) (f : Lot → Lot) (x : Nat) : (s.modLot k f).laneD x = s.laneD x := rfl
@[simp] theorem State.modLot_chestD (k : Nat) (f : Lot → Lot) (x : Nat) : (s.modLot k f).chestD x = s.chestD x := rfl

/-! ## setClass -/

@[simp] theorem State.setClass_pending (k : Nat) (o : Option TareClass) : (s.setClass k o).pending = s.pending := rfl
@[simp] theorem State.setClass_part (k : Nat) (o : Option TareClass) : (s.setClass k o).part = s.part := rfl
@[simp] theorem State.setClass_purgeTimer (k : Nat) (o : Option TareClass) : (s.setClass k o).purgeTimer = s.purgeTimer := rfl
@[simp] theorem State.setClass_noticesAtPurge (k : Nat) (o : Option TareClass) : (s.setClass k o).noticesAtPurge = s.noticesAtPurge := rfl
@[simp] theorem State.setClass_marker (k : Nat) (o : Option TareClass) : (s.setClass k o).marker = s.marker := rfl
@[simp] theorem State.setClass_restartKind (k : Nat) (o : Option TareClass) : (s.setClass k o).restartKind = s.restartKind := rfl
@[simp] theorem State.setClass_restartCause (k : Nat) (o : Option TareClass) : (s.setClass k o).restartCause = s.restartCause := rfl
@[simp] theorem State.setClass_purgeFinished (k : Nat) (o : Option TareClass) : (s.setClass k o).purgeFinished = s.purgeFinished := rfl
@[simp] theorem State.setClass_pwrgood (k : Nat) (o : Option TareClass) : (s.setClass k o).pwrgood = s.pwrgood := rfl
@[simp] theorem State.setClass_resetAsserted (k : Nat) (o : Option TareClass) : (s.setClass k o).resetAsserted = s.resetAsserted := rfl
@[simp] theorem State.setClass_buffer (k : Nat) (o : Option TareClass) : (s.setClass k o).buffer = s.buffer := rfl
@[simp] theorem State.setClass_sdo (k : Nat) (o : Option TareClass) : (s.setClass k o).sdo = s.sdo := rfl
@[simp] theorem State.setClass_notices (k : Nat) (o : Option TareClass) : (s.setClass k o).notices = s.notices := rfl
@[simp] theorem State.setClass_cycle (k : Nat) (o : Option TareClass) : (s.setClass k o).cycle = s.cycle := rfl
@[simp] theorem State.setClass_linkOut (k : Nat) (o : Option TareClass) : (s.setClass k o).linkOut = s.linkOut := rfl
@[simp] theorem State.setClass_stations (k : Nat) (o : Option TareClass) : (s.setClass k o).stations = s.stations := rfl
@[simp] theorem State.setClass_verifications (k : Nat) (o : Option TareClass) : (s.setClass k o).verifications = s.verifications := rfl
@[simp] theorem State.setClass_heads (k : Nat) (o : Option TareClass) : (s.setClass k o).heads = s.heads := rfl
@[simp] theorem State.setClass_waits (k : Nat) (o : Option TareClass) : (s.setClass k o).waits = s.waits := rfl
@[simp] theorem State.setClass_lanes (k : Nat) (o : Option TareClass) : (s.setClass k o).lanes = s.lanes := rfl
@[simp] theorem State.setClass_lots (k : Nat) (o : Option TareClass) : (s.setClass k o).lots = s.lots := rfl
@[simp] theorem State.setClass_bulks (k : Nat) (o : Option TareClass) : (s.setClass k o).bulks = s.bulks := rfl
@[simp] theorem State.setClass_chests (k : Nat) (o : Option TareClass) : (s.setClass k o).chests = s.chests := rfl
@[simp] theorem State.setClass_pool (k : Nat) (o : Option TareClass) : (s.setClass k o).pool = s.pool := rfl
@[simp] theorem State.setClass_lotOf (k : Nat) (o : Option TareClass) (x : Nat) : (s.setClass k o).lot? x = s.lot? x := rfl
@[simp] theorem State.setClass_bulkOf (k : Nat) (o : Option TareClass) (x : Nat) : (s.setClass k o).bulk? x = s.bulk? x := rfl
@[simp] theorem State.setClass_laneOf (k : Nat) (o : Option TareClass) (x : Nat) : (s.setClass k o).lane? x = s.lane? x := rfl
@[simp] theorem State.setClass_chestOf (k : Nat) (o : Option TareClass) (x : Nat) : (s.setClass k o).chest? x = s.chest? x := rfl
@[simp] theorem State.setClass_station (k : Nat) (o : Option TareClass) (x : Nat) : (s.setClass k o).station x = s.station x := rfl
@[simp] theorem State.setClass_verification (k : Nat) (o : Option TareClass) (x : Nat) : (s.setClass k o).verification x = s.verification x := rfl
@[simp] theorem State.setClass_head (k : Nat) (o : Option TareClass) (x : Nat) : (s.setClass k o).head x = s.head x := rfl
@[simp] theorem State.setClass_wait (k : Nat) (o : Option TareClass) (x : Nat) : (s.setClass k o).wait x = s.wait x := rfl
@[simp] theorem State.setClass_notice (k : Nat) (o : Option TareClass) (x : NoticeKind) : (s.setClass k o).notice x = s.notice x := rfl
@[simp] theorem State.setClass_lotD (k : Nat) (o : Option TareClass) (x : Nat) : (s.setClass k o).lotD x = s.lotD x := rfl
@[simp] theorem State.setClass_bulkD (k : Nat) (o : Option TareClass) (x : Nat) : (s.setClass k o).bulkD x = s.bulkD x := rfl
@[simp] theorem State.setClass_laneD (k : Nat) (o : Option TareClass) (x : Nat) : (s.setClass k o).laneD x = s.laneD x := rfl
@[simp] theorem State.setClass_chestD (k : Nat) (o : Option TareClass) (x : Nat) : (s.setClass k o).chestD x = s.chestD x := rfl

/-! ## setBulk -/

@[simp] theorem State.setBulk_pending (k : Nat) (o : Option Bulk) : (s.setBulk k o).pending = s.pending := rfl
@[simp] theorem State.setBulk_part (k : Nat) (o : Option Bulk) : (s.setBulk k o).part = s.part := rfl
@[simp] theorem State.setBulk_purgeTimer (k : Nat) (o : Option Bulk) : (s.setBulk k o).purgeTimer = s.purgeTimer := rfl
@[simp] theorem State.setBulk_noticesAtPurge (k : Nat) (o : Option Bulk) : (s.setBulk k o).noticesAtPurge = s.noticesAtPurge := rfl
@[simp] theorem State.setBulk_marker (k : Nat) (o : Option Bulk) : (s.setBulk k o).marker = s.marker := rfl
@[simp] theorem State.setBulk_restartKind (k : Nat) (o : Option Bulk) : (s.setBulk k o).restartKind = s.restartKind := rfl
@[simp] theorem State.setBulk_restartCause (k : Nat) (o : Option Bulk) : (s.setBulk k o).restartCause = s.restartCause := rfl
@[simp] theorem State.setBulk_purgeFinished (k : Nat) (o : Option Bulk) : (s.setBulk k o).purgeFinished = s.purgeFinished := rfl
@[simp] theorem State.setBulk_pwrgood (k : Nat) (o : Option Bulk) : (s.setBulk k o).pwrgood = s.pwrgood := rfl
@[simp] theorem State.setBulk_resetAsserted (k : Nat) (o : Option Bulk) : (s.setBulk k o).resetAsserted = s.resetAsserted := rfl
@[simp] theorem State.setBulk_buffer (k : Nat) (o : Option Bulk) : (s.setBulk k o).buffer = s.buffer := rfl
@[simp] theorem State.setBulk_sdo (k : Nat) (o : Option Bulk) : (s.setBulk k o).sdo = s.sdo := rfl
@[simp] theorem State.setBulk_notices (k : Nat) (o : Option Bulk) : (s.setBulk k o).notices = s.notices := rfl
@[simp] theorem State.setBulk_cycle (k : Nat) (o : Option Bulk) : (s.setBulk k o).cycle = s.cycle := rfl
@[simp] theorem State.setBulk_linkOut (k : Nat) (o : Option Bulk) : (s.setBulk k o).linkOut = s.linkOut := rfl
@[simp] theorem State.setBulk_stations (k : Nat) (o : Option Bulk) : (s.setBulk k o).stations = s.stations := rfl
@[simp] theorem State.setBulk_verifications (k : Nat) (o : Option Bulk) : (s.setBulk k o).verifications = s.verifications := rfl
@[simp] theorem State.setBulk_heads (k : Nat) (o : Option Bulk) : (s.setBulk k o).heads = s.heads := rfl
@[simp] theorem State.setBulk_waits (k : Nat) (o : Option Bulk) : (s.setBulk k o).waits = s.waits := rfl
@[simp] theorem State.setBulk_lanes (k : Nat) (o : Option Bulk) : (s.setBulk k o).lanes = s.lanes := rfl
@[simp] theorem State.setBulk_lots (k : Nat) (o : Option Bulk) : (s.setBulk k o).lots = s.lots := rfl
@[simp] theorem State.setBulk_classes (k : Nat) (o : Option Bulk) : (s.setBulk k o).classes = s.classes := rfl
@[simp] theorem State.setBulk_chests (k : Nat) (o : Option Bulk) : (s.setBulk k o).chests = s.chests := rfl
@[simp] theorem State.setBulk_pool (k : Nat) (o : Option Bulk) : (s.setBulk k o).pool = s.pool := rfl
@[simp] theorem State.setBulk_lotOf (k : Nat) (o : Option Bulk) (x : Nat) : (s.setBulk k o).lot? x = s.lot? x := rfl
@[simp] theorem State.setBulk_classOf (k : Nat) (o : Option Bulk) (x : Nat) : (s.setBulk k o).class? x = s.class? x := rfl
@[simp] theorem State.setBulk_laneOf (k : Nat) (o : Option Bulk) (x : Nat) : (s.setBulk k o).lane? x = s.lane? x := rfl
@[simp] theorem State.setBulk_chestOf (k : Nat) (o : Option Bulk) (x : Nat) : (s.setBulk k o).chest? x = s.chest? x := rfl
@[simp] theorem State.setBulk_station (k : Nat) (o : Option Bulk) (x : Nat) : (s.setBulk k o).station x = s.station x := rfl
@[simp] theorem State.setBulk_verification (k : Nat) (o : Option Bulk) (x : Nat) : (s.setBulk k o).verification x = s.verification x := rfl
@[simp] theorem State.setBulk_head (k : Nat) (o : Option Bulk) (x : Nat) : (s.setBulk k o).head x = s.head x := rfl
@[simp] theorem State.setBulk_wait (k : Nat) (o : Option Bulk) (x : Nat) : (s.setBulk k o).wait x = s.wait x := rfl
@[simp] theorem State.setBulk_notice (k : Nat) (o : Option Bulk) (x : NoticeKind) : (s.setBulk k o).notice x = s.notice x := rfl
@[simp] theorem State.setBulk_lotD (k : Nat) (o : Option Bulk) (x : Nat) : (s.setBulk k o).lotD x = s.lotD x := rfl
@[simp] theorem State.setBulk_classD (k : Nat) (o : Option Bulk) (x : Nat) : (s.setBulk k o).classD x = s.classD x := rfl
@[simp] theorem State.setBulk_laneD (k : Nat) (o : Option Bulk) (x : Nat) : (s.setBulk k o).laneD x = s.laneD x := rfl
@[simp] theorem State.setBulk_chestD (k : Nat) (o : Option Bulk) (x : Nat) : (s.setBulk k o).chestD x = s.chestD x := rfl

/-! ## modBulk -/

@[simp] theorem State.modBulk_pending (k : Nat) (f : Bulk → Bulk) : (s.modBulk k f).pending = s.pending := rfl
@[simp] theorem State.modBulk_part (k : Nat) (f : Bulk → Bulk) : (s.modBulk k f).part = s.part := rfl
@[simp] theorem State.modBulk_purgeTimer (k : Nat) (f : Bulk → Bulk) : (s.modBulk k f).purgeTimer = s.purgeTimer := rfl
@[simp] theorem State.modBulk_noticesAtPurge (k : Nat) (f : Bulk → Bulk) : (s.modBulk k f).noticesAtPurge = s.noticesAtPurge := rfl
@[simp] theorem State.modBulk_marker (k : Nat) (f : Bulk → Bulk) : (s.modBulk k f).marker = s.marker := rfl
@[simp] theorem State.modBulk_restartKind (k : Nat) (f : Bulk → Bulk) : (s.modBulk k f).restartKind = s.restartKind := rfl
@[simp] theorem State.modBulk_restartCause (k : Nat) (f : Bulk → Bulk) : (s.modBulk k f).restartCause = s.restartCause := rfl
@[simp] theorem State.modBulk_purgeFinished (k : Nat) (f : Bulk → Bulk) : (s.modBulk k f).purgeFinished = s.purgeFinished := rfl
@[simp] theorem State.modBulk_pwrgood (k : Nat) (f : Bulk → Bulk) : (s.modBulk k f).pwrgood = s.pwrgood := rfl
@[simp] theorem State.modBulk_resetAsserted (k : Nat) (f : Bulk → Bulk) : (s.modBulk k f).resetAsserted = s.resetAsserted := rfl
@[simp] theorem State.modBulk_buffer (k : Nat) (f : Bulk → Bulk) : (s.modBulk k f).buffer = s.buffer := rfl
@[simp] theorem State.modBulk_sdo (k : Nat) (f : Bulk → Bulk) : (s.modBulk k f).sdo = s.sdo := rfl
@[simp] theorem State.modBulk_notices (k : Nat) (f : Bulk → Bulk) : (s.modBulk k f).notices = s.notices := rfl
@[simp] theorem State.modBulk_cycle (k : Nat) (f : Bulk → Bulk) : (s.modBulk k f).cycle = s.cycle := rfl
@[simp] theorem State.modBulk_linkOut (k : Nat) (f : Bulk → Bulk) : (s.modBulk k f).linkOut = s.linkOut := rfl
@[simp] theorem State.modBulk_stations (k : Nat) (f : Bulk → Bulk) : (s.modBulk k f).stations = s.stations := rfl
@[simp] theorem State.modBulk_verifications (k : Nat) (f : Bulk → Bulk) : (s.modBulk k f).verifications = s.verifications := rfl
@[simp] theorem State.modBulk_heads (k : Nat) (f : Bulk → Bulk) : (s.modBulk k f).heads = s.heads := rfl
@[simp] theorem State.modBulk_waits (k : Nat) (f : Bulk → Bulk) : (s.modBulk k f).waits = s.waits := rfl
@[simp] theorem State.modBulk_lanes (k : Nat) (f : Bulk → Bulk) : (s.modBulk k f).lanes = s.lanes := rfl
@[simp] theorem State.modBulk_lots (k : Nat) (f : Bulk → Bulk) : (s.modBulk k f).lots = s.lots := rfl
@[simp] theorem State.modBulk_classes (k : Nat) (f : Bulk → Bulk) : (s.modBulk k f).classes = s.classes := rfl
@[simp] theorem State.modBulk_chests (k : Nat) (f : Bulk → Bulk) : (s.modBulk k f).chests = s.chests := rfl
@[simp] theorem State.modBulk_pool (k : Nat) (f : Bulk → Bulk) : (s.modBulk k f).pool = s.pool := rfl
@[simp] theorem State.modBulk_lotOf (k : Nat) (f : Bulk → Bulk) (x : Nat) : (s.modBulk k f).lot? x = s.lot? x := rfl
@[simp] theorem State.modBulk_classOf (k : Nat) (f : Bulk → Bulk) (x : Nat) : (s.modBulk k f).class? x = s.class? x := rfl
@[simp] theorem State.modBulk_laneOf (k : Nat) (f : Bulk → Bulk) (x : Nat) : (s.modBulk k f).lane? x = s.lane? x := rfl
@[simp] theorem State.modBulk_chestOf (k : Nat) (f : Bulk → Bulk) (x : Nat) : (s.modBulk k f).chest? x = s.chest? x := rfl
@[simp] theorem State.modBulk_station (k : Nat) (f : Bulk → Bulk) (x : Nat) : (s.modBulk k f).station x = s.station x := rfl
@[simp] theorem State.modBulk_verification (k : Nat) (f : Bulk → Bulk) (x : Nat) : (s.modBulk k f).verification x = s.verification x := rfl
@[simp] theorem State.modBulk_head (k : Nat) (f : Bulk → Bulk) (x : Nat) : (s.modBulk k f).head x = s.head x := rfl
@[simp] theorem State.modBulk_wait (k : Nat) (f : Bulk → Bulk) (x : Nat) : (s.modBulk k f).wait x = s.wait x := rfl
@[simp] theorem State.modBulk_notice (k : Nat) (f : Bulk → Bulk) (x : NoticeKind) : (s.modBulk k f).notice x = s.notice x := rfl
@[simp] theorem State.modBulk_lotD (k : Nat) (f : Bulk → Bulk) (x : Nat) : (s.modBulk k f).lotD x = s.lotD x := rfl
@[simp] theorem State.modBulk_classD (k : Nat) (f : Bulk → Bulk) (x : Nat) : (s.modBulk k f).classD x = s.classD x := rfl
@[simp] theorem State.modBulk_laneD (k : Nat) (f : Bulk → Bulk) (x : Nat) : (s.modBulk k f).laneD x = s.laneD x := rfl
@[simp] theorem State.modBulk_chestD (k : Nat) (f : Bulk → Bulk) (x : Nat) : (s.modBulk k f).chestD x = s.chestD x := rfl

/-! ## setLane -/

@[simp] theorem State.setLane_pending (n : Nat) (o : Option Lane) : (s.setLane n o).pending = s.pending := rfl
@[simp] theorem State.setLane_part (n : Nat) (o : Option Lane) : (s.setLane n o).part = s.part := rfl
@[simp] theorem State.setLane_purgeTimer (n : Nat) (o : Option Lane) : (s.setLane n o).purgeTimer = s.purgeTimer := rfl
@[simp] theorem State.setLane_noticesAtPurge (n : Nat) (o : Option Lane) : (s.setLane n o).noticesAtPurge = s.noticesAtPurge := rfl
@[simp] theorem State.setLane_marker (n : Nat) (o : Option Lane) : (s.setLane n o).marker = s.marker := rfl
@[simp] theorem State.setLane_restartKind (n : Nat) (o : Option Lane) : (s.setLane n o).restartKind = s.restartKind := rfl
@[simp] theorem State.setLane_restartCause (n : Nat) (o : Option Lane) : (s.setLane n o).restartCause = s.restartCause := rfl
@[simp] theorem State.setLane_purgeFinished (n : Nat) (o : Option Lane) : (s.setLane n o).purgeFinished = s.purgeFinished := rfl
@[simp] theorem State.setLane_pwrgood (n : Nat) (o : Option Lane) : (s.setLane n o).pwrgood = s.pwrgood := rfl
@[simp] theorem State.setLane_resetAsserted (n : Nat) (o : Option Lane) : (s.setLane n o).resetAsserted = s.resetAsserted := rfl
@[simp] theorem State.setLane_buffer (n : Nat) (o : Option Lane) : (s.setLane n o).buffer = s.buffer := rfl
@[simp] theorem State.setLane_sdo (n : Nat) (o : Option Lane) : (s.setLane n o).sdo = s.sdo := rfl
@[simp] theorem State.setLane_notices (n : Nat) (o : Option Lane) : (s.setLane n o).notices = s.notices := rfl
@[simp] theorem State.setLane_cycle (n : Nat) (o : Option Lane) : (s.setLane n o).cycle = s.cycle := rfl
@[simp] theorem State.setLane_linkOut (n : Nat) (o : Option Lane) : (s.setLane n o).linkOut = s.linkOut := rfl
@[simp] theorem State.setLane_stations (n : Nat) (o : Option Lane) : (s.setLane n o).stations = s.stations := rfl
@[simp] theorem State.setLane_verifications (n : Nat) (o : Option Lane) : (s.setLane n o).verifications = s.verifications := rfl
@[simp] theorem State.setLane_heads (n : Nat) (o : Option Lane) : (s.setLane n o).heads = s.heads := rfl
@[simp] theorem State.setLane_waits (n : Nat) (o : Option Lane) : (s.setLane n o).waits = s.waits := rfl
@[simp] theorem State.setLane_lots (n : Nat) (o : Option Lane) : (s.setLane n o).lots = s.lots := rfl
@[simp] theorem State.setLane_classes (n : Nat) (o : Option Lane) : (s.setLane n o).classes = s.classes := rfl
@[simp] theorem State.setLane_bulks (n : Nat) (o : Option Lane) : (s.setLane n o).bulks = s.bulks := rfl
@[simp] theorem State.setLane_chests (n : Nat) (o : Option Lane) : (s.setLane n o).chests = s.chests := rfl
@[simp] theorem State.setLane_pool (n : Nat) (o : Option Lane) : (s.setLane n o).pool = s.pool := rfl
@[simp] theorem State.setLane_lotOf (n : Nat) (o : Option Lane) (x : Nat) : (s.setLane n o).lot? x = s.lot? x := rfl
@[simp] theorem State.setLane_classOf (n : Nat) (o : Option Lane) (x : Nat) : (s.setLane n o).class? x = s.class? x := rfl
@[simp] theorem State.setLane_bulkOf (n : Nat) (o : Option Lane) (x : Nat) : (s.setLane n o).bulk? x = s.bulk? x := rfl
@[simp] theorem State.setLane_chestOf (n : Nat) (o : Option Lane) (x : Nat) : (s.setLane n o).chest? x = s.chest? x := rfl
@[simp] theorem State.setLane_station (n : Nat) (o : Option Lane) (x : Nat) : (s.setLane n o).station x = s.station x := rfl
@[simp] theorem State.setLane_verification (n : Nat) (o : Option Lane) (x : Nat) : (s.setLane n o).verification x = s.verification x := rfl
@[simp] theorem State.setLane_head (n : Nat) (o : Option Lane) (x : Nat) : (s.setLane n o).head x = s.head x := rfl
@[simp] theorem State.setLane_wait (n : Nat) (o : Option Lane) (x : Nat) : (s.setLane n o).wait x = s.wait x := rfl
@[simp] theorem State.setLane_notice (n : Nat) (o : Option Lane) (x : NoticeKind) : (s.setLane n o).notice x = s.notice x := rfl
@[simp] theorem State.setLane_lotD (n : Nat) (o : Option Lane) (x : Nat) : (s.setLane n o).lotD x = s.lotD x := rfl
@[simp] theorem State.setLane_classD (n : Nat) (o : Option Lane) (x : Nat) : (s.setLane n o).classD x = s.classD x := rfl
@[simp] theorem State.setLane_bulkD (n : Nat) (o : Option Lane) (x : Nat) : (s.setLane n o).bulkD x = s.bulkD x := rfl
@[simp] theorem State.setLane_chestD (n : Nat) (o : Option Lane) (x : Nat) : (s.setLane n o).chestD x = s.chestD x := rfl

/-! ## modLane -/

@[simp] theorem State.modLane_pending (n : Nat) (f : Lane → Lane) : (s.modLane n f).pending = s.pending := rfl
@[simp] theorem State.modLane_part (n : Nat) (f : Lane → Lane) : (s.modLane n f).part = s.part := rfl
@[simp] theorem State.modLane_purgeTimer (n : Nat) (f : Lane → Lane) : (s.modLane n f).purgeTimer = s.purgeTimer := rfl
@[simp] theorem State.modLane_noticesAtPurge (n : Nat) (f : Lane → Lane) : (s.modLane n f).noticesAtPurge = s.noticesAtPurge := rfl
@[simp] theorem State.modLane_marker (n : Nat) (f : Lane → Lane) : (s.modLane n f).marker = s.marker := rfl
@[simp] theorem State.modLane_restartKind (n : Nat) (f : Lane → Lane) : (s.modLane n f).restartKind = s.restartKind := rfl
@[simp] theorem State.modLane_restartCause (n : Nat) (f : Lane → Lane) : (s.modLane n f).restartCause = s.restartCause := rfl
@[simp] theorem State.modLane_purgeFinished (n : Nat) (f : Lane → Lane) : (s.modLane n f).purgeFinished = s.purgeFinished := rfl
@[simp] theorem State.modLane_pwrgood (n : Nat) (f : Lane → Lane) : (s.modLane n f).pwrgood = s.pwrgood := rfl
@[simp] theorem State.modLane_resetAsserted (n : Nat) (f : Lane → Lane) : (s.modLane n f).resetAsserted = s.resetAsserted := rfl
@[simp] theorem State.modLane_buffer (n : Nat) (f : Lane → Lane) : (s.modLane n f).buffer = s.buffer := rfl
@[simp] theorem State.modLane_sdo (n : Nat) (f : Lane → Lane) : (s.modLane n f).sdo = s.sdo := rfl
@[simp] theorem State.modLane_notices (n : Nat) (f : Lane → Lane) : (s.modLane n f).notices = s.notices := rfl
@[simp] theorem State.modLane_cycle (n : Nat) (f : Lane → Lane) : (s.modLane n f).cycle = s.cycle := rfl
@[simp] theorem State.modLane_linkOut (n : Nat) (f : Lane → Lane) : (s.modLane n f).linkOut = s.linkOut := rfl
@[simp] theorem State.modLane_stations (n : Nat) (f : Lane → Lane) : (s.modLane n f).stations = s.stations := rfl
@[simp] theorem State.modLane_verifications (n : Nat) (f : Lane → Lane) : (s.modLane n f).verifications = s.verifications := rfl
@[simp] theorem State.modLane_heads (n : Nat) (f : Lane → Lane) : (s.modLane n f).heads = s.heads := rfl
@[simp] theorem State.modLane_waits (n : Nat) (f : Lane → Lane) : (s.modLane n f).waits = s.waits := rfl
@[simp] theorem State.modLane_lots (n : Nat) (f : Lane → Lane) : (s.modLane n f).lots = s.lots := rfl
@[simp] theorem State.modLane_classes (n : Nat) (f : Lane → Lane) : (s.modLane n f).classes = s.classes := rfl
@[simp] theorem State.modLane_bulks (n : Nat) (f : Lane → Lane) : (s.modLane n f).bulks = s.bulks := rfl
@[simp] theorem State.modLane_chests (n : Nat) (f : Lane → Lane) : (s.modLane n f).chests = s.chests := rfl
@[simp] theorem State.modLane_pool (n : Nat) (f : Lane → Lane) : (s.modLane n f).pool = s.pool := rfl
@[simp] theorem State.modLane_lotOf (n : Nat) (f : Lane → Lane) (x : Nat) : (s.modLane n f).lot? x = s.lot? x := rfl
@[simp] theorem State.modLane_classOf (n : Nat) (f : Lane → Lane) (x : Nat) : (s.modLane n f).class? x = s.class? x := rfl
@[simp] theorem State.modLane_bulkOf (n : Nat) (f : Lane → Lane) (x : Nat) : (s.modLane n f).bulk? x = s.bulk? x := rfl
@[simp] theorem State.modLane_chestOf (n : Nat) (f : Lane → Lane) (x : Nat) : (s.modLane n f).chest? x = s.chest? x := rfl
@[simp] theorem State.modLane_station (n : Nat) (f : Lane → Lane) (x : Nat) : (s.modLane n f).station x = s.station x := rfl
@[simp] theorem State.modLane_verification (n : Nat) (f : Lane → Lane) (x : Nat) : (s.modLane n f).verification x = s.verification x := rfl
@[simp] theorem State.modLane_head (n : Nat) (f : Lane → Lane) (x : Nat) : (s.modLane n f).head x = s.head x := rfl
@[simp] theorem State.modLane_wait (n : Nat) (f : Lane → Lane) (x : Nat) : (s.modLane n f).wait x = s.wait x := rfl
@[simp] theorem State.modLane_notice (n : Nat) (f : Lane → Lane) (x : NoticeKind) : (s.modLane n f).notice x = s.notice x := rfl
@[simp] theorem State.modLane_lotD (n : Nat) (f : Lane → Lane) (x : Nat) : (s.modLane n f).lotD x = s.lotD x := rfl
@[simp] theorem State.modLane_classD (n : Nat) (f : Lane → Lane) (x : Nat) : (s.modLane n f).classD x = s.classD x := rfl
@[simp] theorem State.modLane_bulkD (n : Nat) (f : Lane → Lane) (x : Nat) : (s.modLane n f).bulkD x = s.bulkD x := rfl
@[simp] theorem State.modLane_chestD (n : Nat) (f : Lane → Lane) (x : Nat) : (s.modLane n f).chestD x = s.chestD x := rfl

/-! ## setChest -/

@[simp] theorem State.setChest_pending (i : Nat) (o : Option Chest) : (s.setChest i o).pending = s.pending := rfl
@[simp] theorem State.setChest_part (i : Nat) (o : Option Chest) : (s.setChest i o).part = s.part := rfl
@[simp] theorem State.setChest_purgeTimer (i : Nat) (o : Option Chest) : (s.setChest i o).purgeTimer = s.purgeTimer := rfl
@[simp] theorem State.setChest_noticesAtPurge (i : Nat) (o : Option Chest) : (s.setChest i o).noticesAtPurge = s.noticesAtPurge := rfl
@[simp] theorem State.setChest_marker (i : Nat) (o : Option Chest) : (s.setChest i o).marker = s.marker := rfl
@[simp] theorem State.setChest_restartKind (i : Nat) (o : Option Chest) : (s.setChest i o).restartKind = s.restartKind := rfl
@[simp] theorem State.setChest_restartCause (i : Nat) (o : Option Chest) : (s.setChest i o).restartCause = s.restartCause := rfl
@[simp] theorem State.setChest_purgeFinished (i : Nat) (o : Option Chest) : (s.setChest i o).purgeFinished = s.purgeFinished := rfl
@[simp] theorem State.setChest_pwrgood (i : Nat) (o : Option Chest) : (s.setChest i o).pwrgood = s.pwrgood := rfl
@[simp] theorem State.setChest_resetAsserted (i : Nat) (o : Option Chest) : (s.setChest i o).resetAsserted = s.resetAsserted := rfl
@[simp] theorem State.setChest_buffer (i : Nat) (o : Option Chest) : (s.setChest i o).buffer = s.buffer := rfl
@[simp] theorem State.setChest_sdo (i : Nat) (o : Option Chest) : (s.setChest i o).sdo = s.sdo := rfl
@[simp] theorem State.setChest_notices (i : Nat) (o : Option Chest) : (s.setChest i o).notices = s.notices := rfl
@[simp] theorem State.setChest_cycle (i : Nat) (o : Option Chest) : (s.setChest i o).cycle = s.cycle := rfl
@[simp] theorem State.setChest_linkOut (i : Nat) (o : Option Chest) : (s.setChest i o).linkOut = s.linkOut := rfl
@[simp] theorem State.setChest_stations (i : Nat) (o : Option Chest) : (s.setChest i o).stations = s.stations := rfl
@[simp] theorem State.setChest_verifications (i : Nat) (o : Option Chest) : (s.setChest i o).verifications = s.verifications := rfl
@[simp] theorem State.setChest_heads (i : Nat) (o : Option Chest) : (s.setChest i o).heads = s.heads := rfl
@[simp] theorem State.setChest_waits (i : Nat) (o : Option Chest) : (s.setChest i o).waits = s.waits := rfl
@[simp] theorem State.setChest_lanes (i : Nat) (o : Option Chest) : (s.setChest i o).lanes = s.lanes := rfl
@[simp] theorem State.setChest_lots (i : Nat) (o : Option Chest) : (s.setChest i o).lots = s.lots := rfl
@[simp] theorem State.setChest_classes (i : Nat) (o : Option Chest) : (s.setChest i o).classes = s.classes := rfl
@[simp] theorem State.setChest_bulks (i : Nat) (o : Option Chest) : (s.setChest i o).bulks = s.bulks := rfl
@[simp] theorem State.setChest_pool (i : Nat) (o : Option Chest) : (s.setChest i o).pool = s.pool := rfl
@[simp] theorem State.setChest_lotOf (i : Nat) (o : Option Chest) (x : Nat) : (s.setChest i o).lot? x = s.lot? x := rfl
@[simp] theorem State.setChest_classOf (i : Nat) (o : Option Chest) (x : Nat) : (s.setChest i o).class? x = s.class? x := rfl
@[simp] theorem State.setChest_bulkOf (i : Nat) (o : Option Chest) (x : Nat) : (s.setChest i o).bulk? x = s.bulk? x := rfl
@[simp] theorem State.setChest_laneOf (i : Nat) (o : Option Chest) (x : Nat) : (s.setChest i o).lane? x = s.lane? x := rfl
@[simp] theorem State.setChest_station (i : Nat) (o : Option Chest) (x : Nat) : (s.setChest i o).station x = s.station x := rfl
@[simp] theorem State.setChest_verification (i : Nat) (o : Option Chest) (x : Nat) : (s.setChest i o).verification x = s.verification x := rfl
@[simp] theorem State.setChest_head (i : Nat) (o : Option Chest) (x : Nat) : (s.setChest i o).head x = s.head x := rfl
@[simp] theorem State.setChest_wait (i : Nat) (o : Option Chest) (x : Nat) : (s.setChest i o).wait x = s.wait x := rfl
@[simp] theorem State.setChest_notice (i : Nat) (o : Option Chest) (x : NoticeKind) : (s.setChest i o).notice x = s.notice x := rfl
@[simp] theorem State.setChest_lotD (i : Nat) (o : Option Chest) (x : Nat) : (s.setChest i o).lotD x = s.lotD x := rfl
@[simp] theorem State.setChest_classD (i : Nat) (o : Option Chest) (x : Nat) : (s.setChest i o).classD x = s.classD x := rfl
@[simp] theorem State.setChest_bulkD (i : Nat) (o : Option Chest) (x : Nat) : (s.setChest i o).bulkD x = s.bulkD x := rfl
@[simp] theorem State.setChest_laneD (i : Nat) (o : Option Chest) (x : Nat) : (s.setChest i o).laneD x = s.laneD x := rfl

/-! ## modChest -/

@[simp] theorem State.modChest_pending (i : Nat) (f : Chest → Chest) : (s.modChest i f).pending = s.pending := rfl
@[simp] theorem State.modChest_part (i : Nat) (f : Chest → Chest) : (s.modChest i f).part = s.part := rfl
@[simp] theorem State.modChest_purgeTimer (i : Nat) (f : Chest → Chest) : (s.modChest i f).purgeTimer = s.purgeTimer := rfl
@[simp] theorem State.modChest_noticesAtPurge (i : Nat) (f : Chest → Chest) : (s.modChest i f).noticesAtPurge = s.noticesAtPurge := rfl
@[simp] theorem State.modChest_marker (i : Nat) (f : Chest → Chest) : (s.modChest i f).marker = s.marker := rfl
@[simp] theorem State.modChest_restartKind (i : Nat) (f : Chest → Chest) : (s.modChest i f).restartKind = s.restartKind := rfl
@[simp] theorem State.modChest_restartCause (i : Nat) (f : Chest → Chest) : (s.modChest i f).restartCause = s.restartCause := rfl
@[simp] theorem State.modChest_purgeFinished (i : Nat) (f : Chest → Chest) : (s.modChest i f).purgeFinished = s.purgeFinished := rfl
@[simp] theorem State.modChest_pwrgood (i : Nat) (f : Chest → Chest) : (s.modChest i f).pwrgood = s.pwrgood := rfl
@[simp] theorem State.modChest_resetAsserted (i : Nat) (f : Chest → Chest) : (s.modChest i f).resetAsserted = s.resetAsserted := rfl
@[simp] theorem State.modChest_buffer (i : Nat) (f : Chest → Chest) : (s.modChest i f).buffer = s.buffer := rfl
@[simp] theorem State.modChest_sdo (i : Nat) (f : Chest → Chest) : (s.modChest i f).sdo = s.sdo := rfl
@[simp] theorem State.modChest_notices (i : Nat) (f : Chest → Chest) : (s.modChest i f).notices = s.notices := rfl
@[simp] theorem State.modChest_cycle (i : Nat) (f : Chest → Chest) : (s.modChest i f).cycle = s.cycle := rfl
@[simp] theorem State.modChest_linkOut (i : Nat) (f : Chest → Chest) : (s.modChest i f).linkOut = s.linkOut := rfl
@[simp] theorem State.modChest_stations (i : Nat) (f : Chest → Chest) : (s.modChest i f).stations = s.stations := rfl
@[simp] theorem State.modChest_verifications (i : Nat) (f : Chest → Chest) : (s.modChest i f).verifications = s.verifications := rfl
@[simp] theorem State.modChest_heads (i : Nat) (f : Chest → Chest) : (s.modChest i f).heads = s.heads := rfl
@[simp] theorem State.modChest_waits (i : Nat) (f : Chest → Chest) : (s.modChest i f).waits = s.waits := rfl
@[simp] theorem State.modChest_lanes (i : Nat) (f : Chest → Chest) : (s.modChest i f).lanes = s.lanes := rfl
@[simp] theorem State.modChest_lots (i : Nat) (f : Chest → Chest) : (s.modChest i f).lots = s.lots := rfl
@[simp] theorem State.modChest_classes (i : Nat) (f : Chest → Chest) : (s.modChest i f).classes = s.classes := rfl
@[simp] theorem State.modChest_bulks (i : Nat) (f : Chest → Chest) : (s.modChest i f).bulks = s.bulks := rfl
@[simp] theorem State.modChest_pool (i : Nat) (f : Chest → Chest) : (s.modChest i f).pool = s.pool := rfl
@[simp] theorem State.modChest_lotOf (i : Nat) (f : Chest → Chest) (x : Nat) : (s.modChest i f).lot? x = s.lot? x := rfl
@[simp] theorem State.modChest_classOf (i : Nat) (f : Chest → Chest) (x : Nat) : (s.modChest i f).class? x = s.class? x := rfl
@[simp] theorem State.modChest_bulkOf (i : Nat) (f : Chest → Chest) (x : Nat) : (s.modChest i f).bulk? x = s.bulk? x := rfl
@[simp] theorem State.modChest_laneOf (i : Nat) (f : Chest → Chest) (x : Nat) : (s.modChest i f).lane? x = s.lane? x := rfl
@[simp] theorem State.modChest_station (i : Nat) (f : Chest → Chest) (x : Nat) : (s.modChest i f).station x = s.station x := rfl
@[simp] theorem State.modChest_verification (i : Nat) (f : Chest → Chest) (x : Nat) : (s.modChest i f).verification x = s.verification x := rfl
@[simp] theorem State.modChest_head (i : Nat) (f : Chest → Chest) (x : Nat) : (s.modChest i f).head x = s.head x := rfl
@[simp] theorem State.modChest_wait (i : Nat) (f : Chest → Chest) (x : Nat) : (s.modChest i f).wait x = s.wait x := rfl
@[simp] theorem State.modChest_notice (i : Nat) (f : Chest → Chest) (x : NoticeKind) : (s.modChest i f).notice x = s.notice x := rfl
@[simp] theorem State.modChest_lotD (i : Nat) (f : Chest → Chest) (x : Nat) : (s.modChest i f).lotD x = s.lotD x := rfl
@[simp] theorem State.modChest_classD (i : Nat) (f : Chest → Chest) (x : Nat) : (s.modChest i f).classD x = s.classD x := rfl
@[simp] theorem State.modChest_bulkD (i : Nat) (f : Chest → Chest) (x : Nat) : (s.modChest i f).bulkD x = s.bulkD x := rfl
@[simp] theorem State.modChest_laneD (i : Nat) (f : Chest → Chest) (x : Nat) : (s.modChest i f).laneD x = s.laneD x := rfl

/-! ## setStation -/

@[simp] theorem State.setStation_pending (a : Nat) (v : Station) : (s.setStation a v).pending = s.pending := rfl
@[simp] theorem State.setStation_part (a : Nat) (v : Station) : (s.setStation a v).part = s.part := rfl
@[simp] theorem State.setStation_purgeTimer (a : Nat) (v : Station) : (s.setStation a v).purgeTimer = s.purgeTimer := rfl
@[simp] theorem State.setStation_noticesAtPurge (a : Nat) (v : Station) : (s.setStation a v).noticesAtPurge = s.noticesAtPurge := rfl
@[simp] theorem State.setStation_marker (a : Nat) (v : Station) : (s.setStation a v).marker = s.marker := rfl
@[simp] theorem State.setStation_restartKind (a : Nat) (v : Station) : (s.setStation a v).restartKind = s.restartKind := rfl
@[simp] theorem State.setStation_restartCause (a : Nat) (v : Station) : (s.setStation a v).restartCause = s.restartCause := rfl
@[simp] theorem State.setStation_purgeFinished (a : Nat) (v : Station) : (s.setStation a v).purgeFinished = s.purgeFinished := rfl
@[simp] theorem State.setStation_pwrgood (a : Nat) (v : Station) : (s.setStation a v).pwrgood = s.pwrgood := rfl
@[simp] theorem State.setStation_resetAsserted (a : Nat) (v : Station) : (s.setStation a v).resetAsserted = s.resetAsserted := rfl
@[simp] theorem State.setStation_buffer (a : Nat) (v : Station) : (s.setStation a v).buffer = s.buffer := rfl
@[simp] theorem State.setStation_sdo (a : Nat) (v : Station) : (s.setStation a v).sdo = s.sdo := rfl
@[simp] theorem State.setStation_notices (a : Nat) (v : Station) : (s.setStation a v).notices = s.notices := rfl
@[simp] theorem State.setStation_cycle (a : Nat) (v : Station) : (s.setStation a v).cycle = s.cycle := rfl
@[simp] theorem State.setStation_linkOut (a : Nat) (v : Station) : (s.setStation a v).linkOut = s.linkOut := rfl
@[simp] theorem State.setStation_verifications (a : Nat) (v : Station) : (s.setStation a v).verifications = s.verifications := rfl
@[simp] theorem State.setStation_heads (a : Nat) (v : Station) : (s.setStation a v).heads = s.heads := rfl
@[simp] theorem State.setStation_waits (a : Nat) (v : Station) : (s.setStation a v).waits = s.waits := rfl
@[simp] theorem State.setStation_lanes (a : Nat) (v : Station) : (s.setStation a v).lanes = s.lanes := rfl
@[simp] theorem State.setStation_lots (a : Nat) (v : Station) : (s.setStation a v).lots = s.lots := rfl
@[simp] theorem State.setStation_classes (a : Nat) (v : Station) : (s.setStation a v).classes = s.classes := rfl
@[simp] theorem State.setStation_bulks (a : Nat) (v : Station) : (s.setStation a v).bulks = s.bulks := rfl
@[simp] theorem State.setStation_chests (a : Nat) (v : Station) : (s.setStation a v).chests = s.chests := rfl
@[simp] theorem State.setStation_pool (a : Nat) (v : Station) : (s.setStation a v).pool = s.pool := rfl
@[simp] theorem State.setStation_lotOf (a : Nat) (v : Station) (x : Nat) : (s.setStation a v).lot? x = s.lot? x := rfl
@[simp] theorem State.setStation_classOf (a : Nat) (v : Station) (x : Nat) : (s.setStation a v).class? x = s.class? x := rfl
@[simp] theorem State.setStation_bulkOf (a : Nat) (v : Station) (x : Nat) : (s.setStation a v).bulk? x = s.bulk? x := rfl
@[simp] theorem State.setStation_laneOf (a : Nat) (v : Station) (x : Nat) : (s.setStation a v).lane? x = s.lane? x := rfl
@[simp] theorem State.setStation_chestOf (a : Nat) (v : Station) (x : Nat) : (s.setStation a v).chest? x = s.chest? x := rfl
@[simp] theorem State.setStation_verification (a : Nat) (v : Station) (x : Nat) : (s.setStation a v).verification x = s.verification x := rfl
@[simp] theorem State.setStation_head (a : Nat) (v : Station) (x : Nat) : (s.setStation a v).head x = s.head x := rfl
@[simp] theorem State.setStation_wait (a : Nat) (v : Station) (x : Nat) : (s.setStation a v).wait x = s.wait x := rfl
@[simp] theorem State.setStation_notice (a : Nat) (v : Station) (x : NoticeKind) : (s.setStation a v).notice x = s.notice x := rfl
@[simp] theorem State.setStation_lotD (a : Nat) (v : Station) (x : Nat) : (s.setStation a v).lotD x = s.lotD x := rfl
@[simp] theorem State.setStation_classD (a : Nat) (v : Station) (x : Nat) : (s.setStation a v).classD x = s.classD x := rfl
@[simp] theorem State.setStation_bulkD (a : Nat) (v : Station) (x : Nat) : (s.setStation a v).bulkD x = s.bulkD x := rfl
@[simp] theorem State.setStation_laneD (a : Nat) (v : Station) (x : Nat) : (s.setStation a v).laneD x = s.laneD x := rfl
@[simp] theorem State.setStation_chestD (a : Nat) (v : Station) (x : Nat) : (s.setStation a v).chestD x = s.chestD x := rfl

/-! ## modStation -/

@[simp] theorem State.modStation_pending (a : Nat) (f : Station → Station) : (s.modStation a f).pending = s.pending := rfl
@[simp] theorem State.modStation_part (a : Nat) (f : Station → Station) : (s.modStation a f).part = s.part := rfl
@[simp] theorem State.modStation_purgeTimer (a : Nat) (f : Station → Station) : (s.modStation a f).purgeTimer = s.purgeTimer := rfl
@[simp] theorem State.modStation_noticesAtPurge (a : Nat) (f : Station → Station) : (s.modStation a f).noticesAtPurge = s.noticesAtPurge := rfl
@[simp] theorem State.modStation_marker (a : Nat) (f : Station → Station) : (s.modStation a f).marker = s.marker := rfl
@[simp] theorem State.modStation_restartKind (a : Nat) (f : Station → Station) : (s.modStation a f).restartKind = s.restartKind := rfl
@[simp] theorem State.modStation_restartCause (a : Nat) (f : Station → Station) : (s.modStation a f).restartCause = s.restartCause := rfl
@[simp] theorem State.modStation_purgeFinished (a : Nat) (f : Station → Station) : (s.modStation a f).purgeFinished = s.purgeFinished := rfl
@[simp] theorem State.modStation_pwrgood (a : Nat) (f : Station → Station) : (s.modStation a f).pwrgood = s.pwrgood := rfl
@[simp] theorem State.modStation_resetAsserted (a : Nat) (f : Station → Station) : (s.modStation a f).resetAsserted = s.resetAsserted := rfl
@[simp] theorem State.modStation_buffer (a : Nat) (f : Station → Station) : (s.modStation a f).buffer = s.buffer := rfl
@[simp] theorem State.modStation_sdo (a : Nat) (f : Station → Station) : (s.modStation a f).sdo = s.sdo := rfl
@[simp] theorem State.modStation_notices (a : Nat) (f : Station → Station) : (s.modStation a f).notices = s.notices := rfl
@[simp] theorem State.modStation_cycle (a : Nat) (f : Station → Station) : (s.modStation a f).cycle = s.cycle := rfl
@[simp] theorem State.modStation_linkOut (a : Nat) (f : Station → Station) : (s.modStation a f).linkOut = s.linkOut := rfl
@[simp] theorem State.modStation_verifications (a : Nat) (f : Station → Station) : (s.modStation a f).verifications = s.verifications := rfl
@[simp] theorem State.modStation_heads (a : Nat) (f : Station → Station) : (s.modStation a f).heads = s.heads := rfl
@[simp] theorem State.modStation_waits (a : Nat) (f : Station → Station) : (s.modStation a f).waits = s.waits := rfl
@[simp] theorem State.modStation_lanes (a : Nat) (f : Station → Station) : (s.modStation a f).lanes = s.lanes := rfl
@[simp] theorem State.modStation_lots (a : Nat) (f : Station → Station) : (s.modStation a f).lots = s.lots := rfl
@[simp] theorem State.modStation_classes (a : Nat) (f : Station → Station) : (s.modStation a f).classes = s.classes := rfl
@[simp] theorem State.modStation_bulks (a : Nat) (f : Station → Station) : (s.modStation a f).bulks = s.bulks := rfl
@[simp] theorem State.modStation_chests (a : Nat) (f : Station → Station) : (s.modStation a f).chests = s.chests := rfl
@[simp] theorem State.modStation_pool (a : Nat) (f : Station → Station) : (s.modStation a f).pool = s.pool := rfl
@[simp] theorem State.modStation_lotOf (a : Nat) (f : Station → Station) (x : Nat) : (s.modStation a f).lot? x = s.lot? x := rfl
@[simp] theorem State.modStation_classOf (a : Nat) (f : Station → Station) (x : Nat) : (s.modStation a f).class? x = s.class? x := rfl
@[simp] theorem State.modStation_bulkOf (a : Nat) (f : Station → Station) (x : Nat) : (s.modStation a f).bulk? x = s.bulk? x := rfl
@[simp] theorem State.modStation_laneOf (a : Nat) (f : Station → Station) (x : Nat) : (s.modStation a f).lane? x = s.lane? x := rfl
@[simp] theorem State.modStation_chestOf (a : Nat) (f : Station → Station) (x : Nat) : (s.modStation a f).chest? x = s.chest? x := rfl
@[simp] theorem State.modStation_verification (a : Nat) (f : Station → Station) (x : Nat) : (s.modStation a f).verification x = s.verification x := rfl
@[simp] theorem State.modStation_head (a : Nat) (f : Station → Station) (x : Nat) : (s.modStation a f).head x = s.head x := rfl
@[simp] theorem State.modStation_wait (a : Nat) (f : Station → Station) (x : Nat) : (s.modStation a f).wait x = s.wait x := rfl
@[simp] theorem State.modStation_notice (a : Nat) (f : Station → Station) (x : NoticeKind) : (s.modStation a f).notice x = s.notice x := rfl
@[simp] theorem State.modStation_lotD (a : Nat) (f : Station → Station) (x : Nat) : (s.modStation a f).lotD x = s.lotD x := rfl
@[simp] theorem State.modStation_classD (a : Nat) (f : Station → Station) (x : Nat) : (s.modStation a f).classD x = s.classD x := rfl
@[simp] theorem State.modStation_bulkD (a : Nat) (f : Station → Station) (x : Nat) : (s.modStation a f).bulkD x = s.bulkD x := rfl
@[simp] theorem State.modStation_laneD (a : Nat) (f : Station → Station) (x : Nat) : (s.modStation a f).laneD x = s.laneD x := rfl
@[simp] theorem State.modStation_chestD (a : Nat) (f : Station → Station) (x : Nat) : (s.modStation a f).chestD x = s.chestD x := rfl

/-! ## setVerification -/

@[simp] theorem State.setVerification_pending (a : Nat) (v : Verification) : (s.setVerification a v).pending = s.pending := rfl
@[simp] theorem State.setVerification_part (a : Nat) (v : Verification) : (s.setVerification a v).part = s.part := rfl
@[simp] theorem State.setVerification_purgeTimer (a : Nat) (v : Verification) : (s.setVerification a v).purgeTimer = s.purgeTimer := rfl
@[simp] theorem State.setVerification_noticesAtPurge (a : Nat) (v : Verification) : (s.setVerification a v).noticesAtPurge = s.noticesAtPurge := rfl
@[simp] theorem State.setVerification_marker (a : Nat) (v : Verification) : (s.setVerification a v).marker = s.marker := rfl
@[simp] theorem State.setVerification_restartKind (a : Nat) (v : Verification) : (s.setVerification a v).restartKind = s.restartKind := rfl
@[simp] theorem State.setVerification_restartCause (a : Nat) (v : Verification) : (s.setVerification a v).restartCause = s.restartCause := rfl
@[simp] theorem State.setVerification_purgeFinished (a : Nat) (v : Verification) : (s.setVerification a v).purgeFinished = s.purgeFinished := rfl
@[simp] theorem State.setVerification_pwrgood (a : Nat) (v : Verification) : (s.setVerification a v).pwrgood = s.pwrgood := rfl
@[simp] theorem State.setVerification_resetAsserted (a : Nat) (v : Verification) : (s.setVerification a v).resetAsserted = s.resetAsserted := rfl
@[simp] theorem State.setVerification_buffer (a : Nat) (v : Verification) : (s.setVerification a v).buffer = s.buffer := rfl
@[simp] theorem State.setVerification_sdo (a : Nat) (v : Verification) : (s.setVerification a v).sdo = s.sdo := rfl
@[simp] theorem State.setVerification_notices (a : Nat) (v : Verification) : (s.setVerification a v).notices = s.notices := rfl
@[simp] theorem State.setVerification_cycle (a : Nat) (v : Verification) : (s.setVerification a v).cycle = s.cycle := rfl
@[simp] theorem State.setVerification_linkOut (a : Nat) (v : Verification) : (s.setVerification a v).linkOut = s.linkOut := rfl
@[simp] theorem State.setVerification_stations (a : Nat) (v : Verification) : (s.setVerification a v).stations = s.stations := rfl
@[simp] theorem State.setVerification_heads (a : Nat) (v : Verification) : (s.setVerification a v).heads = s.heads := rfl
@[simp] theorem State.setVerification_waits (a : Nat) (v : Verification) : (s.setVerification a v).waits = s.waits := rfl
@[simp] theorem State.setVerification_lanes (a : Nat) (v : Verification) : (s.setVerification a v).lanes = s.lanes := rfl
@[simp] theorem State.setVerification_lots (a : Nat) (v : Verification) : (s.setVerification a v).lots = s.lots := rfl
@[simp] theorem State.setVerification_classes (a : Nat) (v : Verification) : (s.setVerification a v).classes = s.classes := rfl
@[simp] theorem State.setVerification_bulks (a : Nat) (v : Verification) : (s.setVerification a v).bulks = s.bulks := rfl
@[simp] theorem State.setVerification_chests (a : Nat) (v : Verification) : (s.setVerification a v).chests = s.chests := rfl
@[simp] theorem State.setVerification_pool (a : Nat) (v : Verification) : (s.setVerification a v).pool = s.pool := rfl
@[simp] theorem State.setVerification_lotOf (a : Nat) (v : Verification) (x : Nat) : (s.setVerification a v).lot? x = s.lot? x := rfl
@[simp] theorem State.setVerification_classOf (a : Nat) (v : Verification) (x : Nat) : (s.setVerification a v).class? x = s.class? x := rfl
@[simp] theorem State.setVerification_bulkOf (a : Nat) (v : Verification) (x : Nat) : (s.setVerification a v).bulk? x = s.bulk? x := rfl
@[simp] theorem State.setVerification_laneOf (a : Nat) (v : Verification) (x : Nat) : (s.setVerification a v).lane? x = s.lane? x := rfl
@[simp] theorem State.setVerification_chestOf (a : Nat) (v : Verification) (x : Nat) : (s.setVerification a v).chest? x = s.chest? x := rfl
@[simp] theorem State.setVerification_station (a : Nat) (v : Verification) (x : Nat) : (s.setVerification a v).station x = s.station x := rfl
@[simp] theorem State.setVerification_head (a : Nat) (v : Verification) (x : Nat) : (s.setVerification a v).head x = s.head x := rfl
@[simp] theorem State.setVerification_wait (a : Nat) (v : Verification) (x : Nat) : (s.setVerification a v).wait x = s.wait x := rfl
@[simp] theorem State.setVerification_notice (a : Nat) (v : Verification) (x : NoticeKind) : (s.setVerification a v).notice x = s.notice x := rfl
@[simp] theorem State.setVerification_lotD (a : Nat) (v : Verification) (x : Nat) : (s.setVerification a v).lotD x = s.lotD x := rfl
@[simp] theorem State.setVerification_classD (a : Nat) (v : Verification) (x : Nat) : (s.setVerification a v).classD x = s.classD x := rfl
@[simp] theorem State.setVerification_bulkD (a : Nat) (v : Verification) (x : Nat) : (s.setVerification a v).bulkD x = s.bulkD x := rfl
@[simp] theorem State.setVerification_laneD (a : Nat) (v : Verification) (x : Nat) : (s.setVerification a v).laneD x = s.laneD x := rfl
@[simp] theorem State.setVerification_chestD (a : Nat) (v : Verification) (x : Nat) : (s.setVerification a v).chestD x = s.chestD x := rfl

/-! ## setHead -/

@[simp] theorem State.setHead_pending (a : Nat) (v : Head) : (s.setHead a v).pending = s.pending := rfl
@[simp] theorem State.setHead_part (a : Nat) (v : Head) : (s.setHead a v).part = s.part := rfl
@[simp] theorem State.setHead_purgeTimer (a : Nat) (v : Head) : (s.setHead a v).purgeTimer = s.purgeTimer := rfl
@[simp] theorem State.setHead_noticesAtPurge (a : Nat) (v : Head) : (s.setHead a v).noticesAtPurge = s.noticesAtPurge := rfl
@[simp] theorem State.setHead_marker (a : Nat) (v : Head) : (s.setHead a v).marker = s.marker := rfl
@[simp] theorem State.setHead_restartKind (a : Nat) (v : Head) : (s.setHead a v).restartKind = s.restartKind := rfl
@[simp] theorem State.setHead_restartCause (a : Nat) (v : Head) : (s.setHead a v).restartCause = s.restartCause := rfl
@[simp] theorem State.setHead_purgeFinished (a : Nat) (v : Head) : (s.setHead a v).purgeFinished = s.purgeFinished := rfl
@[simp] theorem State.setHead_pwrgood (a : Nat) (v : Head) : (s.setHead a v).pwrgood = s.pwrgood := rfl
@[simp] theorem State.setHead_resetAsserted (a : Nat) (v : Head) : (s.setHead a v).resetAsserted = s.resetAsserted := rfl
@[simp] theorem State.setHead_buffer (a : Nat) (v : Head) : (s.setHead a v).buffer = s.buffer := rfl
@[simp] theorem State.setHead_sdo (a : Nat) (v : Head) : (s.setHead a v).sdo = s.sdo := rfl
@[simp] theorem State.setHead_notices (a : Nat) (v : Head) : (s.setHead a v).notices = s.notices := rfl
@[simp] theorem State.setHead_cycle (a : Nat) (v : Head) : (s.setHead a v).cycle = s.cycle := rfl
@[simp] theorem State.setHead_linkOut (a : Nat) (v : Head) : (s.setHead a v).linkOut = s.linkOut := rfl
@[simp] theorem State.setHead_stations (a : Nat) (v : Head) : (s.setHead a v).stations = s.stations := rfl
@[simp] theorem State.setHead_verifications (a : Nat) (v : Head) : (s.setHead a v).verifications = s.verifications := rfl
@[simp] theorem State.setHead_waits (a : Nat) (v : Head) : (s.setHead a v).waits = s.waits := rfl
@[simp] theorem State.setHead_lanes (a : Nat) (v : Head) : (s.setHead a v).lanes = s.lanes := rfl
@[simp] theorem State.setHead_lots (a : Nat) (v : Head) : (s.setHead a v).lots = s.lots := rfl
@[simp] theorem State.setHead_classes (a : Nat) (v : Head) : (s.setHead a v).classes = s.classes := rfl
@[simp] theorem State.setHead_bulks (a : Nat) (v : Head) : (s.setHead a v).bulks = s.bulks := rfl
@[simp] theorem State.setHead_chests (a : Nat) (v : Head) : (s.setHead a v).chests = s.chests := rfl
@[simp] theorem State.setHead_pool (a : Nat) (v : Head) : (s.setHead a v).pool = s.pool := rfl
@[simp] theorem State.setHead_lotOf (a : Nat) (v : Head) (x : Nat) : (s.setHead a v).lot? x = s.lot? x := rfl
@[simp] theorem State.setHead_classOf (a : Nat) (v : Head) (x : Nat) : (s.setHead a v).class? x = s.class? x := rfl
@[simp] theorem State.setHead_bulkOf (a : Nat) (v : Head) (x : Nat) : (s.setHead a v).bulk? x = s.bulk? x := rfl
@[simp] theorem State.setHead_laneOf (a : Nat) (v : Head) (x : Nat) : (s.setHead a v).lane? x = s.lane? x := rfl
@[simp] theorem State.setHead_chestOf (a : Nat) (v : Head) (x : Nat) : (s.setHead a v).chest? x = s.chest? x := rfl
@[simp] theorem State.setHead_station (a : Nat) (v : Head) (x : Nat) : (s.setHead a v).station x = s.station x := rfl
@[simp] theorem State.setHead_verification (a : Nat) (v : Head) (x : Nat) : (s.setHead a v).verification x = s.verification x := rfl
@[simp] theorem State.setHead_wait (a : Nat) (v : Head) (x : Nat) : (s.setHead a v).wait x = s.wait x := rfl
@[simp] theorem State.setHead_notice (a : Nat) (v : Head) (x : NoticeKind) : (s.setHead a v).notice x = s.notice x := rfl
@[simp] theorem State.setHead_lotD (a : Nat) (v : Head) (x : Nat) : (s.setHead a v).lotD x = s.lotD x := rfl
@[simp] theorem State.setHead_classD (a : Nat) (v : Head) (x : Nat) : (s.setHead a v).classD x = s.classD x := rfl
@[simp] theorem State.setHead_bulkD (a : Nat) (v : Head) (x : Nat) : (s.setHead a v).bulkD x = s.bulkD x := rfl
@[simp] theorem State.setHead_laneD (a : Nat) (v : Head) (x : Nat) : (s.setHead a v).laneD x = s.laneD x := rfl
@[simp] theorem State.setHead_chestD (a : Nat) (v : Head) (x : Nat) : (s.setHead a v).chestD x = s.chestD x := rfl

/-! ## modHead -/

@[simp] theorem State.modHead_pending (a : Nat) (f : Head → Head) : (s.modHead a f).pending = s.pending := rfl
@[simp] theorem State.modHead_part (a : Nat) (f : Head → Head) : (s.modHead a f).part = s.part := rfl
@[simp] theorem State.modHead_purgeTimer (a : Nat) (f : Head → Head) : (s.modHead a f).purgeTimer = s.purgeTimer := rfl
@[simp] theorem State.modHead_noticesAtPurge (a : Nat) (f : Head → Head) : (s.modHead a f).noticesAtPurge = s.noticesAtPurge := rfl
@[simp] theorem State.modHead_marker (a : Nat) (f : Head → Head) : (s.modHead a f).marker = s.marker := rfl
@[simp] theorem State.modHead_restartKind (a : Nat) (f : Head → Head) : (s.modHead a f).restartKind = s.restartKind := rfl
@[simp] theorem State.modHead_restartCause (a : Nat) (f : Head → Head) : (s.modHead a f).restartCause = s.restartCause := rfl
@[simp] theorem State.modHead_purgeFinished (a : Nat) (f : Head → Head) : (s.modHead a f).purgeFinished = s.purgeFinished := rfl
@[simp] theorem State.modHead_pwrgood (a : Nat) (f : Head → Head) : (s.modHead a f).pwrgood = s.pwrgood := rfl
@[simp] theorem State.modHead_resetAsserted (a : Nat) (f : Head → Head) : (s.modHead a f).resetAsserted = s.resetAsserted := rfl
@[simp] theorem State.modHead_buffer (a : Nat) (f : Head → Head) : (s.modHead a f).buffer = s.buffer := rfl
@[simp] theorem State.modHead_sdo (a : Nat) (f : Head → Head) : (s.modHead a f).sdo = s.sdo := rfl
@[simp] theorem State.modHead_notices (a : Nat) (f : Head → Head) : (s.modHead a f).notices = s.notices := rfl
@[simp] theorem State.modHead_cycle (a : Nat) (f : Head → Head) : (s.modHead a f).cycle = s.cycle := rfl
@[simp] theorem State.modHead_linkOut (a : Nat) (f : Head → Head) : (s.modHead a f).linkOut = s.linkOut := rfl
@[simp] theorem State.modHead_stations (a : Nat) (f : Head → Head) : (s.modHead a f).stations = s.stations := rfl
@[simp] theorem State.modHead_verifications (a : Nat) (f : Head → Head) : (s.modHead a f).verifications = s.verifications := rfl
@[simp] theorem State.modHead_waits (a : Nat) (f : Head → Head) : (s.modHead a f).waits = s.waits := rfl
@[simp] theorem State.modHead_lanes (a : Nat) (f : Head → Head) : (s.modHead a f).lanes = s.lanes := rfl
@[simp] theorem State.modHead_lots (a : Nat) (f : Head → Head) : (s.modHead a f).lots = s.lots := rfl
@[simp] theorem State.modHead_classes (a : Nat) (f : Head → Head) : (s.modHead a f).classes = s.classes := rfl
@[simp] theorem State.modHead_bulks (a : Nat) (f : Head → Head) : (s.modHead a f).bulks = s.bulks := rfl
@[simp] theorem State.modHead_chests (a : Nat) (f : Head → Head) : (s.modHead a f).chests = s.chests := rfl
@[simp] theorem State.modHead_pool (a : Nat) (f : Head → Head) : (s.modHead a f).pool = s.pool := rfl
@[simp] theorem State.modHead_lotOf (a : Nat) (f : Head → Head) (x : Nat) : (s.modHead a f).lot? x = s.lot? x := rfl
@[simp] theorem State.modHead_classOf (a : Nat) (f : Head → Head) (x : Nat) : (s.modHead a f).class? x = s.class? x := rfl
@[simp] theorem State.modHead_bulkOf (a : Nat) (f : Head → Head) (x : Nat) : (s.modHead a f).bulk? x = s.bulk? x := rfl
@[simp] theorem State.modHead_laneOf (a : Nat) (f : Head → Head) (x : Nat) : (s.modHead a f).lane? x = s.lane? x := rfl
@[simp] theorem State.modHead_chestOf (a : Nat) (f : Head → Head) (x : Nat) : (s.modHead a f).chest? x = s.chest? x := rfl
@[simp] theorem State.modHead_station (a : Nat) (f : Head → Head) (x : Nat) : (s.modHead a f).station x = s.station x := rfl
@[simp] theorem State.modHead_verification (a : Nat) (f : Head → Head) (x : Nat) : (s.modHead a f).verification x = s.verification x := rfl
@[simp] theorem State.modHead_wait (a : Nat) (f : Head → Head) (x : Nat) : (s.modHead a f).wait x = s.wait x := rfl
@[simp] theorem State.modHead_notice (a : Nat) (f : Head → Head) (x : NoticeKind) : (s.modHead a f).notice x = s.notice x := rfl
@[simp] theorem State.modHead_lotD (a : Nat) (f : Head → Head) (x : Nat) : (s.modHead a f).lotD x = s.lotD x := rfl
@[simp] theorem State.modHead_classD (a : Nat) (f : Head → Head) (x : Nat) : (s.modHead a f).classD x = s.classD x := rfl
@[simp] theorem State.modHead_bulkD (a : Nat) (f : Head → Head) (x : Nat) : (s.modHead a f).bulkD x = s.bulkD x := rfl
@[simp] theorem State.modHead_laneD (a : Nat) (f : Head → Head) (x : Nat) : (s.modHead a f).laneD x = s.laneD x := rfl
@[simp] theorem State.modHead_chestD (a : Nat) (f : Head → Head) (x : Nat) : (s.modHead a f).chestD x = s.chestD x := rfl

/-! ## setWait -/

@[simp] theorem State.setWait_pending (a : Nat) (v : WaitKind) : (s.setWait a v).pending = s.pending := rfl
@[simp] theorem State.setWait_part (a : Nat) (v : WaitKind) : (s.setWait a v).part = s.part := rfl
@[simp] theorem State.setWait_purgeTimer (a : Nat) (v : WaitKind) : (s.setWait a v).purgeTimer = s.purgeTimer := rfl
@[simp] theorem State.setWait_noticesAtPurge (a : Nat) (v : WaitKind) : (s.setWait a v).noticesAtPurge = s.noticesAtPurge := rfl
@[simp] theorem State.setWait_marker (a : Nat) (v : WaitKind) : (s.setWait a v).marker = s.marker := rfl
@[simp] theorem State.setWait_restartKind (a : Nat) (v : WaitKind) : (s.setWait a v).restartKind = s.restartKind := rfl
@[simp] theorem State.setWait_restartCause (a : Nat) (v : WaitKind) : (s.setWait a v).restartCause = s.restartCause := rfl
@[simp] theorem State.setWait_purgeFinished (a : Nat) (v : WaitKind) : (s.setWait a v).purgeFinished = s.purgeFinished := rfl
@[simp] theorem State.setWait_pwrgood (a : Nat) (v : WaitKind) : (s.setWait a v).pwrgood = s.pwrgood := rfl
@[simp] theorem State.setWait_resetAsserted (a : Nat) (v : WaitKind) : (s.setWait a v).resetAsserted = s.resetAsserted := rfl
@[simp] theorem State.setWait_buffer (a : Nat) (v : WaitKind) : (s.setWait a v).buffer = s.buffer := rfl
@[simp] theorem State.setWait_sdo (a : Nat) (v : WaitKind) : (s.setWait a v).sdo = s.sdo := rfl
@[simp] theorem State.setWait_notices (a : Nat) (v : WaitKind) : (s.setWait a v).notices = s.notices := rfl
@[simp] theorem State.setWait_cycle (a : Nat) (v : WaitKind) : (s.setWait a v).cycle = s.cycle := rfl
@[simp] theorem State.setWait_linkOut (a : Nat) (v : WaitKind) : (s.setWait a v).linkOut = s.linkOut := rfl
@[simp] theorem State.setWait_stations (a : Nat) (v : WaitKind) : (s.setWait a v).stations = s.stations := rfl
@[simp] theorem State.setWait_verifications (a : Nat) (v : WaitKind) : (s.setWait a v).verifications = s.verifications := rfl
@[simp] theorem State.setWait_heads (a : Nat) (v : WaitKind) : (s.setWait a v).heads = s.heads := rfl
@[simp] theorem State.setWait_lanes (a : Nat) (v : WaitKind) : (s.setWait a v).lanes = s.lanes := rfl
@[simp] theorem State.setWait_lots (a : Nat) (v : WaitKind) : (s.setWait a v).lots = s.lots := rfl
@[simp] theorem State.setWait_classes (a : Nat) (v : WaitKind) : (s.setWait a v).classes = s.classes := rfl
@[simp] theorem State.setWait_bulks (a : Nat) (v : WaitKind) : (s.setWait a v).bulks = s.bulks := rfl
@[simp] theorem State.setWait_chests (a : Nat) (v : WaitKind) : (s.setWait a v).chests = s.chests := rfl
@[simp] theorem State.setWait_pool (a : Nat) (v : WaitKind) : (s.setWait a v).pool = s.pool := rfl
@[simp] theorem State.setWait_lotOf (a : Nat) (v : WaitKind) (x : Nat) : (s.setWait a v).lot? x = s.lot? x := rfl
@[simp] theorem State.setWait_classOf (a : Nat) (v : WaitKind) (x : Nat) : (s.setWait a v).class? x = s.class? x := rfl
@[simp] theorem State.setWait_bulkOf (a : Nat) (v : WaitKind) (x : Nat) : (s.setWait a v).bulk? x = s.bulk? x := rfl
@[simp] theorem State.setWait_laneOf (a : Nat) (v : WaitKind) (x : Nat) : (s.setWait a v).lane? x = s.lane? x := rfl
@[simp] theorem State.setWait_chestOf (a : Nat) (v : WaitKind) (x : Nat) : (s.setWait a v).chest? x = s.chest? x := rfl
@[simp] theorem State.setWait_station (a : Nat) (v : WaitKind) (x : Nat) : (s.setWait a v).station x = s.station x := rfl
@[simp] theorem State.setWait_verification (a : Nat) (v : WaitKind) (x : Nat) : (s.setWait a v).verification x = s.verification x := rfl
@[simp] theorem State.setWait_head (a : Nat) (v : WaitKind) (x : Nat) : (s.setWait a v).head x = s.head x := rfl
@[simp] theorem State.setWait_notice (a : Nat) (v : WaitKind) (x : NoticeKind) : (s.setWait a v).notice x = s.notice x := rfl
@[simp] theorem State.setWait_lotD (a : Nat) (v : WaitKind) (x : Nat) : (s.setWait a v).lotD x = s.lotD x := rfl
@[simp] theorem State.setWait_classD (a : Nat) (v : WaitKind) (x : Nat) : (s.setWait a v).classD x = s.classD x := rfl
@[simp] theorem State.setWait_bulkD (a : Nat) (v : WaitKind) (x : Nat) : (s.setWait a v).bulkD x = s.bulkD x := rfl
@[simp] theorem State.setWait_laneD (a : Nat) (v : WaitKind) (x : Nat) : (s.setWait a v).laneD x = s.laneD x := rfl
@[simp] theorem State.setWait_chestD (a : Nat) (v : WaitKind) (x : Nat) : (s.setWait a v).chestD x = s.chestD x := rfl

/-! ## setNotice -/

@[simp] theorem State.setNotice_pending (k : NoticeKind) (v : Notice) : (s.setNotice k v).pending = s.pending := rfl
@[simp] theorem State.setNotice_part (k : NoticeKind) (v : Notice) : (s.setNotice k v).part = s.part := rfl
@[simp] theorem State.setNotice_purgeTimer (k : NoticeKind) (v : Notice) : (s.setNotice k v).purgeTimer = s.purgeTimer := rfl
@[simp] theorem State.setNotice_noticesAtPurge (k : NoticeKind) (v : Notice) : (s.setNotice k v).noticesAtPurge = s.noticesAtPurge := rfl
@[simp] theorem State.setNotice_marker (k : NoticeKind) (v : Notice) : (s.setNotice k v).marker = s.marker := rfl
@[simp] theorem State.setNotice_restartKind (k : NoticeKind) (v : Notice) : (s.setNotice k v).restartKind = s.restartKind := rfl
@[simp] theorem State.setNotice_restartCause (k : NoticeKind) (v : Notice) : (s.setNotice k v).restartCause = s.restartCause := rfl
@[simp] theorem State.setNotice_purgeFinished (k : NoticeKind) (v : Notice) : (s.setNotice k v).purgeFinished = s.purgeFinished := rfl
@[simp] theorem State.setNotice_pwrgood (k : NoticeKind) (v : Notice) : (s.setNotice k v).pwrgood = s.pwrgood := rfl
@[simp] theorem State.setNotice_resetAsserted (k : NoticeKind) (v : Notice) : (s.setNotice k v).resetAsserted = s.resetAsserted := rfl
@[simp] theorem State.setNotice_buffer (k : NoticeKind) (v : Notice) : (s.setNotice k v).buffer = s.buffer := rfl
@[simp] theorem State.setNotice_sdo (k : NoticeKind) (v : Notice) : (s.setNotice k v).sdo = s.sdo := rfl
@[simp] theorem State.setNotice_cycle (k : NoticeKind) (v : Notice) : (s.setNotice k v).cycle = s.cycle := rfl
@[simp] theorem State.setNotice_linkOut (k : NoticeKind) (v : Notice) : (s.setNotice k v).linkOut = s.linkOut := rfl
@[simp] theorem State.setNotice_stations (k : NoticeKind) (v : Notice) : (s.setNotice k v).stations = s.stations := rfl
@[simp] theorem State.setNotice_verifications (k : NoticeKind) (v : Notice) : (s.setNotice k v).verifications = s.verifications := rfl
@[simp] theorem State.setNotice_heads (k : NoticeKind) (v : Notice) : (s.setNotice k v).heads = s.heads := rfl
@[simp] theorem State.setNotice_waits (k : NoticeKind) (v : Notice) : (s.setNotice k v).waits = s.waits := rfl
@[simp] theorem State.setNotice_lanes (k : NoticeKind) (v : Notice) : (s.setNotice k v).lanes = s.lanes := rfl
@[simp] theorem State.setNotice_lots (k : NoticeKind) (v : Notice) : (s.setNotice k v).lots = s.lots := rfl
@[simp] theorem State.setNotice_classes (k : NoticeKind) (v : Notice) : (s.setNotice k v).classes = s.classes := rfl
@[simp] theorem State.setNotice_bulks (k : NoticeKind) (v : Notice) : (s.setNotice k v).bulks = s.bulks := rfl
@[simp] theorem State.setNotice_chests (k : NoticeKind) (v : Notice) : (s.setNotice k v).chests = s.chests := rfl
@[simp] theorem State.setNotice_pool (k : NoticeKind) (v : Notice) : (s.setNotice k v).pool = s.pool := rfl
@[simp] theorem State.setNotice_lotOf (k : NoticeKind) (v : Notice) (x : Nat) : (s.setNotice k v).lot? x = s.lot? x := rfl
@[simp] theorem State.setNotice_classOf (k : NoticeKind) (v : Notice) (x : Nat) : (s.setNotice k v).class? x = s.class? x := rfl
@[simp] theorem State.setNotice_bulkOf (k : NoticeKind) (v : Notice) (x : Nat) : (s.setNotice k v).bulk? x = s.bulk? x := rfl
@[simp] theorem State.setNotice_laneOf (k : NoticeKind) (v : Notice) (x : Nat) : (s.setNotice k v).lane? x = s.lane? x := rfl
@[simp] theorem State.setNotice_chestOf (k : NoticeKind) (v : Notice) (x : Nat) : (s.setNotice k v).chest? x = s.chest? x := rfl
@[simp] theorem State.setNotice_station (k : NoticeKind) (v : Notice) (x : Nat) : (s.setNotice k v).station x = s.station x := rfl
@[simp] theorem State.setNotice_verification (k : NoticeKind) (v : Notice) (x : Nat) : (s.setNotice k v).verification x = s.verification x := rfl
@[simp] theorem State.setNotice_head (k : NoticeKind) (v : Notice) (x : Nat) : (s.setNotice k v).head x = s.head x := rfl
@[simp] theorem State.setNotice_wait (k : NoticeKind) (v : Notice) (x : Nat) : (s.setNotice k v).wait x = s.wait x := rfl
@[simp] theorem State.setNotice_lotD (k : NoticeKind) (v : Notice) (x : Nat) : (s.setNotice k v).lotD x = s.lotD x := rfl
@[simp] theorem State.setNotice_classD (k : NoticeKind) (v : Notice) (x : Nat) : (s.setNotice k v).classD x = s.classD x := rfl
@[simp] theorem State.setNotice_bulkD (k : NoticeKind) (v : Notice) (x : Nat) : (s.setNotice k v).bulkD x = s.bulkD x := rfl
@[simp] theorem State.setNotice_laneD (k : NoticeKind) (v : Notice) (x : Nat) : (s.setNotice k v).laneD x = s.laneD x := rfl
@[simp] theorem State.setNotice_chestD (k : NoticeKind) (v : Notice) (x : Nat) : (s.setNotice k v).chestD x = s.chestD x := rfl

/-! ## raise -/

@[simp] theorem State.raise_pending (k : NoticeKind) (o : Option Nat) : (s.raise k o).pending = s.pending := rfl
@[simp] theorem State.raise_part (k : NoticeKind) (o : Option Nat) : (s.raise k o).part = s.part := rfl
@[simp] theorem State.raise_purgeTimer (k : NoticeKind) (o : Option Nat) : (s.raise k o).purgeTimer = s.purgeTimer := rfl
@[simp] theorem State.raise_noticesAtPurge (k : NoticeKind) (o : Option Nat) : (s.raise k o).noticesAtPurge = s.noticesAtPurge := rfl
@[simp] theorem State.raise_marker (k : NoticeKind) (o : Option Nat) : (s.raise k o).marker = s.marker := rfl
@[simp] theorem State.raise_restartKind (k : NoticeKind) (o : Option Nat) : (s.raise k o).restartKind = s.restartKind := rfl
@[simp] theorem State.raise_restartCause (k : NoticeKind) (o : Option Nat) : (s.raise k o).restartCause = s.restartCause := rfl
@[simp] theorem State.raise_purgeFinished (k : NoticeKind) (o : Option Nat) : (s.raise k o).purgeFinished = s.purgeFinished := rfl
@[simp] theorem State.raise_pwrgood (k : NoticeKind) (o : Option Nat) : (s.raise k o).pwrgood = s.pwrgood := rfl
@[simp] theorem State.raise_resetAsserted (k : NoticeKind) (o : Option Nat) : (s.raise k o).resetAsserted = s.resetAsserted := rfl
@[simp] theorem State.raise_buffer (k : NoticeKind) (o : Option Nat) : (s.raise k o).buffer = s.buffer := rfl
@[simp] theorem State.raise_sdo (k : NoticeKind) (o : Option Nat) : (s.raise k o).sdo = s.sdo := rfl
@[simp] theorem State.raise_cycle (k : NoticeKind) (o : Option Nat) : (s.raise k o).cycle = s.cycle := rfl
@[simp] theorem State.raise_linkOut (k : NoticeKind) (o : Option Nat) : (s.raise k o).linkOut = s.linkOut := rfl
@[simp] theorem State.raise_stations (k : NoticeKind) (o : Option Nat) : (s.raise k o).stations = s.stations := rfl
@[simp] theorem State.raise_verifications (k : NoticeKind) (o : Option Nat) : (s.raise k o).verifications = s.verifications := rfl
@[simp] theorem State.raise_heads (k : NoticeKind) (o : Option Nat) : (s.raise k o).heads = s.heads := rfl
@[simp] theorem State.raise_waits (k : NoticeKind) (o : Option Nat) : (s.raise k o).waits = s.waits := rfl
@[simp] theorem State.raise_lanes (k : NoticeKind) (o : Option Nat) : (s.raise k o).lanes = s.lanes := rfl
@[simp] theorem State.raise_lots (k : NoticeKind) (o : Option Nat) : (s.raise k o).lots = s.lots := rfl
@[simp] theorem State.raise_classes (k : NoticeKind) (o : Option Nat) : (s.raise k o).classes = s.classes := rfl
@[simp] theorem State.raise_bulks (k : NoticeKind) (o : Option Nat) : (s.raise k o).bulks = s.bulks := rfl
@[simp] theorem State.raise_chests (k : NoticeKind) (o : Option Nat) : (s.raise k o).chests = s.chests := rfl
@[simp] theorem State.raise_pool (k : NoticeKind) (o : Option Nat) : (s.raise k o).pool = s.pool := rfl
@[simp] theorem State.raise_lotOf (k : NoticeKind) (o : Option Nat) (x : Nat) : (s.raise k o).lot? x = s.lot? x := rfl
@[simp] theorem State.raise_classOf (k : NoticeKind) (o : Option Nat) (x : Nat) : (s.raise k o).class? x = s.class? x := rfl
@[simp] theorem State.raise_bulkOf (k : NoticeKind) (o : Option Nat) (x : Nat) : (s.raise k o).bulk? x = s.bulk? x := rfl
@[simp] theorem State.raise_laneOf (k : NoticeKind) (o : Option Nat) (x : Nat) : (s.raise k o).lane? x = s.lane? x := rfl
@[simp] theorem State.raise_chestOf (k : NoticeKind) (o : Option Nat) (x : Nat) : (s.raise k o).chest? x = s.chest? x := rfl
@[simp] theorem State.raise_station (k : NoticeKind) (o : Option Nat) (x : Nat) : (s.raise k o).station x = s.station x := rfl
@[simp] theorem State.raise_verification (k : NoticeKind) (o : Option Nat) (x : Nat) : (s.raise k o).verification x = s.verification x := rfl
@[simp] theorem State.raise_head (k : NoticeKind) (o : Option Nat) (x : Nat) : (s.raise k o).head x = s.head x := rfl
@[simp] theorem State.raise_wait (k : NoticeKind) (o : Option Nat) (x : Nat) : (s.raise k o).wait x = s.wait x := rfl
@[simp] theorem State.raise_lotD (k : NoticeKind) (o : Option Nat) (x : Nat) : (s.raise k o).lotD x = s.lotD x := rfl
@[simp] theorem State.raise_classD (k : NoticeKind) (o : Option Nat) (x : Nat) : (s.raise k o).classD x = s.classD x := rfl
@[simp] theorem State.raise_bulkD (k : NoticeKind) (o : Option Nat) (x : Nat) : (s.raise k o).bulkD x = s.bulkD x := rfl
@[simp] theorem State.raise_laneD (k : NoticeKind) (o : Option Nat) (x : Nat) : (s.raise k o).laneD x = s.laneD x := rfl
@[simp] theorem State.raise_chestD (k : NoticeKind) (o : Option Nat) (x : Nat) : (s.raise k o).chestD x = s.chestD x := rfl

/-! ## setPool -/

@[simp] theorem State.setPool_pending (p : List Nat) : (s.setPool p).pending = s.pending := rfl
@[simp] theorem State.setPool_part (p : List Nat) : (s.setPool p).part = s.part := rfl
@[simp] theorem State.setPool_purgeTimer (p : List Nat) : (s.setPool p).purgeTimer = s.purgeTimer := rfl
@[simp] theorem State.setPool_noticesAtPurge (p : List Nat) : (s.setPool p).noticesAtPurge = s.noticesAtPurge := rfl
@[simp] theorem State.setPool_marker (p : List Nat) : (s.setPool p).marker = s.marker := rfl
@[simp] theorem State.setPool_restartKind (p : List Nat) : (s.setPool p).restartKind = s.restartKind := rfl
@[simp] theorem State.setPool_restartCause (p : List Nat) : (s.setPool p).restartCause = s.restartCause := rfl
@[simp] theorem State.setPool_purgeFinished (p : List Nat) : (s.setPool p).purgeFinished = s.purgeFinished := rfl
@[simp] theorem State.setPool_pwrgood (p : List Nat) : (s.setPool p).pwrgood = s.pwrgood := rfl
@[simp] theorem State.setPool_resetAsserted (p : List Nat) : (s.setPool p).resetAsserted = s.resetAsserted := rfl
@[simp] theorem State.setPool_buffer (p : List Nat) : (s.setPool p).buffer = s.buffer := rfl
@[simp] theorem State.setPool_sdo (p : List Nat) : (s.setPool p).sdo = s.sdo := rfl
@[simp] theorem State.setPool_notices (p : List Nat) : (s.setPool p).notices = s.notices := rfl
@[simp] theorem State.setPool_cycle (p : List Nat) : (s.setPool p).cycle = s.cycle := rfl
@[simp] theorem State.setPool_linkOut (p : List Nat) : (s.setPool p).linkOut = s.linkOut := rfl
@[simp] theorem State.setPool_stations (p : List Nat) : (s.setPool p).stations = s.stations := rfl
@[simp] theorem State.setPool_verifications (p : List Nat) : (s.setPool p).verifications = s.verifications := rfl
@[simp] theorem State.setPool_heads (p : List Nat) : (s.setPool p).heads = s.heads := rfl
@[simp] theorem State.setPool_waits (p : List Nat) : (s.setPool p).waits = s.waits := rfl
@[simp] theorem State.setPool_lanes (p : List Nat) : (s.setPool p).lanes = s.lanes := rfl
@[simp] theorem State.setPool_lots (p : List Nat) : (s.setPool p).lots = s.lots := rfl
@[simp] theorem State.setPool_classes (p : List Nat) : (s.setPool p).classes = s.classes := rfl
@[simp] theorem State.setPool_bulks (p : List Nat) : (s.setPool p).bulks = s.bulks := rfl
@[simp] theorem State.setPool_chests (p : List Nat) : (s.setPool p).chests = s.chests := rfl
@[simp] theorem State.setPool_lotOf (p : List Nat) (x : Nat) : (s.setPool p).lot? x = s.lot? x := rfl
@[simp] theorem State.setPool_classOf (p : List Nat) (x : Nat) : (s.setPool p).class? x = s.class? x := rfl
@[simp] theorem State.setPool_bulkOf (p : List Nat) (x : Nat) : (s.setPool p).bulk? x = s.bulk? x := rfl
@[simp] theorem State.setPool_laneOf (p : List Nat) (x : Nat) : (s.setPool p).lane? x = s.lane? x := rfl
@[simp] theorem State.setPool_chestOf (p : List Nat) (x : Nat) : (s.setPool p).chest? x = s.chest? x := rfl
@[simp] theorem State.setPool_station (p : List Nat) (x : Nat) : (s.setPool p).station x = s.station x := rfl
@[simp] theorem State.setPool_verification (p : List Nat) (x : Nat) : (s.setPool p).verification x = s.verification x := rfl
@[simp] theorem State.setPool_head (p : List Nat) (x : Nat) : (s.setPool p).head x = s.head x := rfl
@[simp] theorem State.setPool_wait (p : List Nat) (x : Nat) : (s.setPool p).wait x = s.wait x := rfl
@[simp] theorem State.setPool_notice (p : List Nat) (x : NoticeKind) : (s.setPool p).notice x = s.notice x := rfl
@[simp] theorem State.setPool_lotD (p : List Nat) (x : Nat) : (s.setPool p).lotD x = s.lotD x := rfl
@[simp] theorem State.setPool_classD (p : List Nat) (x : Nat) : (s.setPool p).classD x = s.classD x := rfl
@[simp] theorem State.setPool_bulkD (p : List Nat) (x : Nat) : (s.setPool p).bulkD x = s.bulkD x := rfl
@[simp] theorem State.setPool_laneD (p : List Nat) (x : Nat) : (s.setPool p).laneD x = s.laneD x := rfl
@[simp] theorem State.setPool_chestD (p : List Nat) (x : Nat) : (s.setPool p).chestD x = s.chestD x := rfl

/-! ## setBuffer -/

@[simp] theorem State.setBuffer_pending (b : Buffer) : (s.setBuffer b).pending = s.pending := rfl
@[simp] theorem State.setBuffer_part (b : Buffer) : (s.setBuffer b).part = s.part := rfl
@[simp] theorem State.setBuffer_purgeTimer (b : Buffer) : (s.setBuffer b).purgeTimer = s.purgeTimer := rfl
@[simp] theorem State.setBuffer_noticesAtPurge (b : Buffer) : (s.setBuffer b).noticesAtPurge = s.noticesAtPurge := rfl
@[simp] theorem State.setBuffer_marker (b : Buffer) : (s.setBuffer b).marker = s.marker := rfl
@[simp] theorem State.setBuffer_restartKind (b : Buffer) : (s.setBuffer b).restartKind = s.restartKind := rfl
@[simp] theorem State.setBuffer_restartCause (b : Buffer) : (s.setBuffer b).restartCause = s.restartCause := rfl
@[simp] theorem State.setBuffer_purgeFinished (b : Buffer) : (s.setBuffer b).purgeFinished = s.purgeFinished := rfl
@[simp] theorem State.setBuffer_pwrgood (b : Buffer) : (s.setBuffer b).pwrgood = s.pwrgood := rfl
@[simp] theorem State.setBuffer_resetAsserted (b : Buffer) : (s.setBuffer b).resetAsserted = s.resetAsserted := rfl
@[simp] theorem State.setBuffer_sdo (b : Buffer) : (s.setBuffer b).sdo = s.sdo := rfl
@[simp] theorem State.setBuffer_notices (b : Buffer) : (s.setBuffer b).notices = s.notices := rfl
@[simp] theorem State.setBuffer_cycle (b : Buffer) : (s.setBuffer b).cycle = s.cycle := rfl
@[simp] theorem State.setBuffer_linkOut (b : Buffer) : (s.setBuffer b).linkOut = s.linkOut := rfl
@[simp] theorem State.setBuffer_stations (b : Buffer) : (s.setBuffer b).stations = s.stations := rfl
@[simp] theorem State.setBuffer_verifications (b : Buffer) : (s.setBuffer b).verifications = s.verifications := rfl
@[simp] theorem State.setBuffer_heads (b : Buffer) : (s.setBuffer b).heads = s.heads := rfl
@[simp] theorem State.setBuffer_waits (b : Buffer) : (s.setBuffer b).waits = s.waits := rfl
@[simp] theorem State.setBuffer_lanes (b : Buffer) : (s.setBuffer b).lanes = s.lanes := rfl
@[simp] theorem State.setBuffer_lots (b : Buffer) : (s.setBuffer b).lots = s.lots := rfl
@[simp] theorem State.setBuffer_classes (b : Buffer) : (s.setBuffer b).classes = s.classes := rfl
@[simp] theorem State.setBuffer_bulks (b : Buffer) : (s.setBuffer b).bulks = s.bulks := rfl
@[simp] theorem State.setBuffer_chests (b : Buffer) : (s.setBuffer b).chests = s.chests := rfl
@[simp] theorem State.setBuffer_pool (b : Buffer) : (s.setBuffer b).pool = s.pool := rfl
@[simp] theorem State.setBuffer_lotOf (b : Buffer) (x : Nat) : (s.setBuffer b).lot? x = s.lot? x := rfl
@[simp] theorem State.setBuffer_classOf (b : Buffer) (x : Nat) : (s.setBuffer b).class? x = s.class? x := rfl
@[simp] theorem State.setBuffer_bulkOf (b : Buffer) (x : Nat) : (s.setBuffer b).bulk? x = s.bulk? x := rfl
@[simp] theorem State.setBuffer_laneOf (b : Buffer) (x : Nat) : (s.setBuffer b).lane? x = s.lane? x := rfl
@[simp] theorem State.setBuffer_chestOf (b : Buffer) (x : Nat) : (s.setBuffer b).chest? x = s.chest? x := rfl
@[simp] theorem State.setBuffer_station (b : Buffer) (x : Nat) : (s.setBuffer b).station x = s.station x := rfl
@[simp] theorem State.setBuffer_verification (b : Buffer) (x : Nat) : (s.setBuffer b).verification x = s.verification x := rfl
@[simp] theorem State.setBuffer_head (b : Buffer) (x : Nat) : (s.setBuffer b).head x = s.head x := rfl
@[simp] theorem State.setBuffer_wait (b : Buffer) (x : Nat) : (s.setBuffer b).wait x = s.wait x := rfl
@[simp] theorem State.setBuffer_notice (b : Buffer) (x : NoticeKind) : (s.setBuffer b).notice x = s.notice x := rfl
@[simp] theorem State.setBuffer_lotD (b : Buffer) (x : Nat) : (s.setBuffer b).lotD x = s.lotD x := rfl
@[simp] theorem State.setBuffer_classD (b : Buffer) (x : Nat) : (s.setBuffer b).classD x = s.classD x := rfl
@[simp] theorem State.setBuffer_bulkD (b : Buffer) (x : Nat) : (s.setBuffer b).bulkD x = s.bulkD x := rfl
@[simp] theorem State.setBuffer_laneD (b : Buffer) (x : Nat) : (s.setBuffer b).laneD x = s.laneD x := rfl
@[simp] theorem State.setBuffer_chestD (b : Buffer) (x : Nat) : (s.setBuffer b).chestD x = s.chestD x := rfl

/-! ## What each write leaves in its own table -/

theorem State.setLot_lot? (k j : Nat) (o : Option Lot) : (s.setLot k o).lot? j = if j = k then o else s.lot? j :=
  Table.get?_put _ _ _ _
theorem State.modLot_lot? (k j : Nat) (f : Lot → Lot) :
    (s.modLot k f).lot? j = if j = k then (s.lot? k).map f else s.lot? j := Table.get?_modify _ _ _ _
theorem State.setClass_class? (k j : Nat) (o : Option TareClass) :
    (s.setClass k o).class? j = if j = k then o else s.class? j := Table.get?_put _ _ _ _
theorem State.setBulk_bulk? (k j : Nat) (o : Option Bulk) :
    (s.setBulk k o).bulk? j = if j = k then o else s.bulk? j := Table.get?_put _ _ _ _
theorem State.modBulk_bulk? (k j : Nat) (f : Bulk → Bulk) :
    (s.modBulk k f).bulk? j = if j = k then (s.bulk? k).map f else s.bulk? j := Table.get?_modify _ _ _ _
theorem State.setLane_lane? (k j : Nat) (o : Option Lane) :
    (s.setLane k o).lane? j = if j = k then o else s.lane? j := Table.get?_put _ _ _ _
theorem State.modLane_lane? (k j : Nat) (f : Lane → Lane) :
    (s.modLane k f).lane? j = if j = k then (s.lane? k).map f else s.lane? j := Table.get?_modify _ _ _ _
theorem State.setChest_chest? (k j : Nat) (o : Option Chest) :
    (s.setChest k o).chest? j = if j = k then o else s.chest? j := Table.get?_put _ _ _ _
theorem State.modChest_chest? (k j : Nat) (f : Chest → Chest) :
    (s.modChest k f).chest? j = if j = k then (s.chest? k).map f else s.chest? j := Table.get?_modify _ _ _ _
theorem State.setStation_station (a b : Nat) (v : Station) :
    (s.setStation a v).station b = if b = a then v else s.station b := Table.getD_setD _ _ _ _ _
theorem State.modStation_station (a b : Nat) (f : Station → Station) :
    (s.modStation a f).station b = if b = a then f (s.station a) else s.station b := Table.getD_setD _ _ _ _ _
theorem State.setVerification_verification (a b : Nat) (v : Verification) :
    (s.setVerification a v).verification b = if b = a then v else s.verification b := Table.getD_setD _ _ _ _ _
theorem State.setHead_head (a b : Nat) (v : Head) :
    (s.setHead a v).head b = if b = a then v else s.head b := Table.getD_setD _ _ _ _ _
theorem State.modHead_head (a b : Nat) (f : Head → Head) :
    (s.modHead a f).head b = if b = a then f (s.head a) else s.head b := Table.getD_setD _ _ _ _ _
theorem State.setWait_wait (a b : Nat) (v : WaitKind) :
    (s.setWait a v).wait b = if b = a then v else s.wait b := Table.getD_setD _ _ _ _ _

/-- The codes of the notice kinds are distinct. -/
theorem NoticeKind.code_injective (j k : NoticeKind) : j.code = k.code ↔ j = k := by
  cases j <;> cases k <;> simp [NoticeKind.code]

theorem State.setNotice_notice (k j : NoticeKind) (v : Notice) :
    (s.setNotice k v).notice j = if j = k then v else s.notice j := by
  have h := Table.getD_setD Notice.cold s.notices k.code j.code v
  simp only [NoticeKind.code_injective] at h
  exact h

theorem State.raise_notice (k j : NoticeKind) (o : Option Nat) :
    (s.raise k o).notice j = if j = k then (s.notice k).raised o else s.notice j := State.setNotice_notice s k j _

@[simp] theorem State.setPool_pool (p : List Nat) : (s.setPool p).pool = p := rfl
@[simp] theorem State.setBuffer_buffer (b : Buffer) : (s.setBuffer b).buffer = b := rfl

@[simp] theorem State.setLot_self (k : Nat) (o : Option Lot) : (s.setLot k o).lot? k = o := by
  simp [State.setLot_lot?]
@[simp] theorem State.modLot_self (k : Nat) (f : Lot → Lot) : (s.modLot k f).lot? k = (s.lot? k).map f := by
  simp [State.modLot_lot?]
@[simp] theorem State.setClass_self (k : Nat) (o : Option TareClass) : (s.setClass k o).class? k = o := by
  simp [State.setClass_class?]
@[simp] theorem State.setBulk_self (k : Nat) (o : Option Bulk) : (s.setBulk k o).bulk? k = o := by
  simp [State.setBulk_bulk?]
@[simp] theorem State.modBulk_self (k : Nat) (f : Bulk → Bulk) : (s.modBulk k f).bulk? k = (s.bulk? k).map f := by
  simp [State.modBulk_bulk?]
@[simp] theorem State.setLane_self (k : Nat) (o : Option Lane) : (s.setLane k o).lane? k = o := by
  simp [State.setLane_lane?]
@[simp] theorem State.modLane_self (k : Nat) (f : Lane → Lane) : (s.modLane k f).lane? k = (s.lane? k).map f := by
  simp [State.modLane_lane?]
@[simp] theorem State.setChest_self (k : Nat) (o : Option Chest) : (s.setChest k o).chest? k = o := by
  simp [State.setChest_chest?]
@[simp] theorem State.modChest_self (k : Nat) (f : Chest → Chest) : (s.modChest k f).chest? k = (s.chest? k).map f := by
  simp [State.modChest_chest?]
@[simp] theorem State.setStation_self (a : Nat) (v : Station) : (s.setStation a v).station a = v := by
  simp [State.setStation_station]
@[simp] theorem State.modStation_self (a : Nat) (f : Station → Station) : (s.modStation a f).station a = f (s.station a) := by
  simp [State.modStation_station]
@[simp] theorem State.setVerification_self (a : Nat) (v : Verification) : (s.setVerification a v).verification a = v := by
  simp [State.setVerification_verification]
@[simp] theorem State.setHead_self (a : Nat) (v : Head) : (s.setHead a v).head a = v := by simp [State.setHead_head]
@[simp] theorem State.modHead_self (a : Nat) (f : Head → Head) : (s.modHead a f).head a = f (s.head a) := by
  simp [State.modHead_head]
@[simp] theorem State.setWait_self (a : Nat) (v : WaitKind) : (s.setWait a v).wait a = v := by simp [State.setWait_wait]
@[simp] theorem State.setNotice_self (k : NoticeKind) (v : Notice) : (s.setNotice k v).notice k = v := by
  simp [State.setNotice_notice]
@[simp] theorem State.raise_self (k : NoticeKind) (o : Option Nat) : (s.raise k o).notice k = (s.notice k).raised o := by
  simp [State.raise_notice]

theorem State.lotD_eq {s : State} {k : Nat} {l : Lot} (h : s.lot? k = some l) : s.lotD k = l := by simp [State.lotD, h]
theorem State.classD_eq {s : State} {k : Nat} {c : TareClass} (h : s.class? k = some c) : s.classD k = c := by
  simp [State.classD, h]
theorem State.bulkD_eq {s : State} {k : Nat} {b : Bulk} (h : s.bulk? k = some b) : s.bulkD k = b := by
  simp [State.bulkD, h]
theorem State.laneD_eq {s : State} {n : Nat} {l : Lane} (h : s.lane? n = some l) : s.laneD n = l := by
  simp [State.laneD, h]
theorem State.chestD_eq {s : State} {i : Nat} {c : Chest} (h : s.chest? i = some c) : s.chestD i = c := by
  simp [State.chestD, h]

theorem State.lotIs_eq {s : State} {k : Nat} {l : Lot} (h : s.lot? k = some l) (p : Lot → Bool) : s.lotIs k p = p l := by
  simp [State.lotIs, h]
theorem State.bulkIs_eq {s : State} {k : Nat} {b : Bulk} (h : s.bulk? k = some b) (p : Bulk → Bool) :
    s.bulkIs k p = p b := by simp [State.bulkIs, h]
theorem State.chestIs_eq {s : State} {i : Nat} {c : Chest} (h : s.chest? i = some c) (p : Chest → Bool) :
    s.chestIs i p = p c := by simp [State.chestIs, h]
theorem State.laneIs_eq {s : State} {n : Nat} {l : Lane} (h : s.lane? n = some l) (p : Lane → Bool) :
    s.laneIs n p = p l := by simp [State.laneIs, h]

end Sys2Proof.Machine
end

