-- ==== Sys2Proof/Laws/Folds.lean ====
section
/-! SUPPORT. What an update made record by record, in ascending number, leaves: a figure no step changes stays, and a
record is changed once if its number is in the list and not at all if it is not. -/

namespace Sys2Proof.Machine

/-- A figure that no step changes is unchanged by them all. -/
theorem foldl_frame {σ β ι : Type} (g : σ → β) (op : σ → ι → σ) (h : ∀ t a, g (op t a) = g t) (l : List ι) (s : σ) :
    g (l.foldl op s) = g s := by
  induction l generalizing s with
  | nil => rfl
  | cons a l ih => rw [List.foldl_cons, ih, h]

/-- A property that every step keeps is kept by them all. -/
theorem foldl_keeps {σ ι : Type} (P : σ → Prop) (op : σ → ι → σ) (l : List ι) (h : ∀ t a, a ∈ l → P t → P (op t a))
    (s : σ) (hs : P s) : P (l.foldl op s) := by
  induction l generalizing s with
  | nil => exact hs
  | cons a l ih =>
    rw [List.foldl_cons]
    exact ih (fun t b hb => h t b (List.mem_cons_of_mem _ hb)) _ (h s a (by simp) hs)

/-- Steps that each change one record, by a rule `F` that holds while `P` does: each listed record is changed once. -/
theorem foldl_at {σ γ : Type} (P : σ → Prop) (r : σ → Nat → γ) (F : Nat → γ → γ) (op : σ → Nat → σ)
    (hP : ∀ t a, P t → P (op t a)) (h1 : ∀ t a, P t → r (op t a) a = F a (r t a))
    (h2 : ∀ t a b, b ≠ a → r (op t a) b = r t b) (l : List Nat) (hl : l.Nodup) (s : σ) (hs : P s) (b : Nat) :
    r (l.foldl op s) b = if b ∈ l then F b (r s b) else r s b := by
  induction l generalizing s with
  | nil => rfl
  | cons a l ih =>
    obtain ⟨ha, hl⟩ := List.nodup_cons.mp hl
    rw [List.foldl_cons, ih hl _ (hP s a hs)]
    by_cases hb : b = a
    · subst hb; simp [ha, h1 s b hs]
    · simp [hb, h2 s a b hb]

theorem addresses_nodup : addresses.Nodup := by decide
theorem laneNumbers_nodup : laneNumbers.Nodup := by decide

theorem mem_addresses (a : Nat) : a ∈ addresses ↔ 1 ≤ a ∧ a ≤ 14 := by
  simp only [addresses, List.mem_cons, List.not_mem_nil, or_false]; omega

theorem mem_laneNumbers (n : Nat) : n ∈ laneNumbers ↔ 1 ≤ n ∧ n ≤ 8 := by
  simp only [laneNumbers, List.mem_cons, List.not_mem_nil, or_false]; omega

theorem mem_noticeKinds (k : NoticeKind) : k ∈ noticeKinds := by cases k <;> decide

/-- One change at every head: the heads alone change, each by it. -/
theorem foldl_modHead (f : Head → Head) (s : State) :
    ∃ hs, addresses.foldl (fun t a => t.modHead a f) s = { s with heads := hs } ∧
      ∀ a, ({ s with heads := hs } : State).head a = if 1 ≤ a ∧ a ≤ 14 then f (s.head a) else s.head a := by
  have key : ∀ (l : List Nat) (s : State), ∃ hs, l.foldl (fun t a => t.modHead a f) s = { s with heads := hs } := by
    intro l
    induction l with
    | nil => exact fun s => ⟨s.heads, rfl⟩
    | cons a l ih =>
      intro s
      obtain ⟨hs, h⟩ := ih (s.modHead a f)
      exact ⟨hs, by rw [List.foldl_cons, h]; rfl⟩
  obtain ⟨hs, h⟩ := key addresses s
  refine ⟨hs, h, fun a => ?_⟩
  have h' := foldl_at (fun _ => True) State.head (fun _ => f) (fun t a => t.modHead a f) (fun _ _ h => h)
    (fun t a _ => by simp) (fun t a b hb => by simp [State.modHead_head, hb]) addresses addresses_nodup s trivial a
  rw [h] at h'
  simpa only [mem_addresses] using h'

end Sys2Proof.Machine
end

