-- ==== Sys2Proof/Laws/Port.lean ====
section
/-! SUPPORT. What taking a latched frame does, said once: the port answers for itself, or the owner's answer is placed. -/

namespace Sys2Proof.Machine

theorem u1_eq (n : Nat) : u1 n = [byte n] := rfl

/-- The part works and the buffer holds a frame. -/
theorem State.latched_eq {s : State} {c : Byte} {rest : List Byte} (hp : s.part ≠ .retain)
    (hb : s.buffer = .preparing (c :: rest)) : s.latched = some (c, rest) := by
  simp [State.latched, hp, hb]

theorem State.latched_retain {s : State} (hp : s.part = .retain) : s.latched = none := by simp [State.latched, hp]

/-- A whole frame's parameters are read. -/
theorem frameParams_frame {params : List Byte} (h : params.length ≤ 100) :
    frameParams (byte params.length :: params) = some params := by
  have h' : (byte params.length).toNat = params.length := by
    simp only [byte, BitVec.toNat_ofNat]; exact Nat.mod_eq_of_lt (by omega)
  simp only [frameParams, h']
  simp [h]

/-- Only a whole frame's parameters are read. -/
theorem frameParams_some {rest ps : List Byte} (h : frameParams rest = some ps) :
    ps.length ≤ 100 ∧ rest = byte ps.length :: ps := by
  cases rest with
  | nil => simp [frameParams] at h
  | cons n l =>
    simp only [frameParams] at h
    split at h
    · next hc =>
      obtain ⟨h1, h2⟩ := hc
      simp at h; subst h
      refine ⟨by omega, ?_⟩
      congr 1
      apply BitVec.eq_of_toNat_eq
      simp only [byte, BitVec.toNat_ofNat, h1]
      exact (Nat.mod_eq_of_lt n.isLt).symm
    · simp at h

theorem State.latches_latched {α : Type} {s : State} {code : Byte} {read : List Byte → Option α} {p : α}
    (h : s.latches code read p) : ∃ rest, s.latched = some (code, rest) ∧ (frameParams rest).bind read = some p := by
  obtain ⟨hp, ps, hl, hb, hr⟩ := h
  refine ⟨byte ps.length :: ps, State.latched_eq hp hb, ?_⟩
  rw [frameParams_frame hl]
  exact hr

/-- A whole frame taken while RUNNING: the owner's changes, and its answer in the buffer (R162). -/
theorem takeCommand_running {α : Type} {s : State} {code : Byte} {read : List Byte → Option α} {p : α} (w : Bool)
    (own : α → State → State × Reply) (h : s.latches code read p) (hs : s.part = .running) :
    takeCommand code read w own s = (own p s).1.respond code (own p s).2 := by
  obtain ⟨rest, h1, h2⟩ := State.latches_latched h
  simp [takeCommand, h1, h2, hs]

/-- A whole frame of a command that is taken while PURGING too (R179). -/
theorem takeCommand_always {α : Type} {s : State} {code : Byte} {read : List Byte → Option α} {p : α}
    (own : α → State → State × Reply) (h : s.latches code read p) :
    takeCommand code read true own s = (own p s).1.respond code (own p s).2 := by
  obtain ⟨rest, h1, h2⟩ := State.latches_latched h
  simp [takeCommand, h1, h2]

/-- Taking a frame does one of four things: nothing, BAD_FRAME, BUSY, or the owner's answer. -/
theorem takeCommand_cases {α : Type} (code : Byte) (read : List Byte → Option α) (w : Bool)
    (own : α → State → State × Reply) (s : State) :
    takeCommand code read w own s = s ∨
    takeCommand code read w own s = s.respond code { status := .badFrame, data := [] } ∨
    takeCommand code read w own s = s.respond code { status := .busy, data := [] } ∨
    ∃ p, takeCommand code read w own s = (own p s).1.respond code (own p s).2 := by
  unfold takeCommand
  split
  · exact Or.inl rfl
  · split
    · exact Or.inl rfl
    · split
      · exact Or.inr (Or.inl rfl)
      · next p _ =>
        split
        · exact Or.inr (Or.inr (Or.inl rfl))
        · exact Or.inr (Or.inr (Or.inr ⟨p, rfl⟩))

theorem State.respond_eq (s : State) (code : Byte) (r : Reply) :
    s.respond code r = { s with buffer := answer code (byte r.status.code) r.data } := rfl

/-- The first failing check of a rule's table: either every check passes, or one fails with those before it passed. -/
theorem firstFailing_none {l : List (Bool × Status)} : firstFailing l = none ↔ ∀ e ∈ l, e.1 = true := by
  induction l with
  | nil => simp [firstFailing]
  | cons e l ih =>
    obtain ⟨ok, st⟩ := e
    cases ok <;> simp [firstFailing, ih]

theorem checked_pass {s : State} {checks : List (Bool × Status)} {effect : State × Reply}
    (h : ∀ e ∈ checks, e.1 = true) : checked s checks effect = effect := by
  simp [checked, firstFailing_none.mpr h]

/-- A refused command leaves the state as it was, with a status that is neither OK nor STARTED unless a check says so. -/
theorem checked_cases (s : State) (checks : List (Bool × Status)) (effect : State × Reply) :
    checked s checks effect = effect ∨ ∃ e ∈ checks, checked s checks effect = refuse s e.2 := by
  induction checks with
  | nil => exact Or.inl rfl
  | cons e l ih =>
    obtain ⟨ok, st⟩ := e
    cases ok
    · exact Or.inr ⟨(false, st), by simp, by simp [checked, firstFailing]⟩
    · have h : checked s ((true, st) :: l) effect = checked s l effect := by simp [checked, firstFailing]
      rw [h]
      rcases ih with h1 | ⟨e, he, h1⟩
      · exact Or.inl h1
      · exact Or.inr ⟨e, List.mem_cons_of_mem _ he, h1⟩

theorem respond_refuse (s : State) (c : Byte) (st : Status) :
    (refuse s st).1.respond c (refuse s st).2 = s.refused c (byte st.code) := rfl

/-! ## A response placed changes no record -/

@[simp] theorem State.respond_lotOf (s : State) (c : Byte) (r : Reply) (x : Nat) :
    (s.respond c r).lot? x = s.lot? x := rfl
@[simp] theorem State.respond_classOf (s : State) (c : Byte) (r : Reply) (x : Nat) :
    (s.respond c r).class? x = s.class? x := rfl
@[simp] theorem State.respond_bulkOf (s : State) (c : Byte) (r : Reply) (x : Nat) :
    (s.respond c r).bulk? x = s.bulk? x := rfl
@[simp] theorem State.respond_laneOf (s : State) (c : Byte) (r : Reply) (x : Nat) :
    (s.respond c r).lane? x = s.lane? x := rfl
@[simp] theorem State.respond_chestOf (s : State) (c : Byte) (r : Reply) (x : Nat) :
    (s.respond c r).chest? x = s.chest? x := rfl
@[simp] theorem State.respond_station (s : State) (c : Byte) (r : Reply) (x : Nat) :
    (s.respond c r).station x = s.station x := rfl
@[simp] theorem State.respond_verification (s : State) (c : Byte) (r : Reply) (x : Nat) :
    (s.respond c r).verification x = s.verification x := rfl
@[simp] theorem State.respond_head (s : State) (c : Byte) (r : Reply) (x : Nat) :
    (s.respond c r).head x = s.head x := rfl
@[simp] theorem State.respond_wait (s : State) (c : Byte) (r : Reply) (x : Nat) :
    (s.respond c r).wait x = s.wait x := rfl
@[simp] theorem State.respond_notice (s : State) (c : Byte) (r : Reply) (x : NoticeKind) :
    (s.respond c r).notice x = s.notice x := rfl
@[simp] theorem State.respond_lotD (s : State) (c : Byte) (r : Reply) (x : Nat) :
    (s.respond c r).lotD x = s.lotD x := rfl
@[simp] theorem State.respond_classD (s : State) (c : Byte) (r : Reply) (x : Nat) :
    (s.respond c r).classD x = s.classD x := rfl
@[simp] theorem State.respond_bulkD (s : State) (c : Byte) (r : Reply) (x : Nat) :
    (s.respond c r).bulkD x = s.bulkD x := rfl
@[simp] theorem State.respond_laneD (s : State) (c : Byte) (r : Reply) (x : Nat) :
    (s.respond c r).laneD x = s.laneD x := rfl
@[simp] theorem State.respond_chestD (s : State) (c : Byte) (r : Reply) (x : Nat) :
    (s.respond c r).chestD x = s.chestD x := rfl
@[simp] theorem State.respond_part (s : State) (c : Byte) (r : Reply) : (s.respond c r).part = s.part := rfl
@[simp] theorem State.respond_lots (s : State) (c : Byte) (r : Reply) : (s.respond c r).lots = s.lots := rfl
@[simp] theorem State.respond_lanes (s : State) (c : Byte) (r : Reply) : (s.respond c r).lanes = s.lanes := rfl
@[simp] theorem State.respond_bulks (s : State) (c : Byte) (r : Reply) : (s.respond c r).bulks = s.bulks := rfl
@[simp] theorem State.respond_chests (s : State) (c : Byte) (r : Reply) : (s.respond c r).chests = s.chests := rfl
@[simp] theorem State.respond_pool (s : State) (c : Byte) (r : Reply) : (s.respond c r).pool = s.pool := rfl
@[simp] theorem State.respond_heads (s : State) (c : Byte) (r : Reply) : (s.respond c r).heads = s.heads := rfl
@[simp] theorem State.respond_stations (s : State) (c : Byte) (r : Reply) : (s.respond c r).stations = s.stations := rfl

end Sys2Proof.Machine
end

