-- ==== Sys2Proof/Laws/Shared.lean ====
section
/-! SUPPORT. What each update that several commands share can do, said once. -/

namespace Sys2Proof.Machine

/-! ## Events at a station -/

/-- An event that is enabled, out of RETAIN, has its effect. -/
theorem atStation_enabled {a : Nat} {e : Bool} {t s : State} (hp : s.part ≠ .retain) (h1 : 1 ≤ a) (h2 : a ≤ 14)
    (he : e = true) : atStation a e t s = t := by simp [atStation, hp, isAddress, h1, h2, he]

/-- An event at a station has its effect or changes nothing. -/
theorem atStation_cases (a : Nat) (e : Bool) (t s : State) : atStation a e t s = t ∨ atStation a e t s = s := by
  unfold atStation; split
  · exact Or.inl rfl
  · exact Or.inr rfl

/-- A call in the slot is taken by its owner while RUNNING. -/
theorem takeFrom_taken {a : Nat} {f : Call → Option State} {s t : State} {c : Call} (hp : s.part = .running)
    (h1 : 1 ≤ a) (h2 : a ≤ 14) (hc : (s.station a).slot = some c) (hf : f c = some t) : takeFrom a f s = t := by
  simp [takeFrom, hp, isAddress, h1, h2, hc, hf]

/-- A call is taken by its owner, or nothing changes. -/
theorem takeFrom_cases (a : Nat) (f : Call → Option State) (s : State) :
    takeFrom a f s = s ∨ ∃ c t, (s.station a).slot = some c ∧ f c = some t ∧ takeFrom a f s = t ∧ s.part = .running := by
  unfold takeFrom
  split
  · next h =>
    cases hc : (s.station a).slot with
    | none => exact Or.inl rfl
    | some c =>
      cases hf : f c with
      | none => exact Or.inl (by simp [hf])
      | some t => exact Or.inr ⟨c, t, rfl, hf, by simp [hf], h.1⟩
  · exact Or.inl rfl

/-! ## Answers and call slots -/

@[simp] theorem State.clearSlot_pending (s : State) (a : Nat) : (s.clearSlot a).pending = s.pending := rfl
@[simp] theorem State.clearSlot_part (s : State) (a : Nat) : (s.clearSlot a).part = s.part := rfl
@[simp] theorem State.clearSlot_purgeTimer (s : State) (a : Nat) : (s.clearSlot a).purgeTimer = s.purgeTimer := rfl
@[simp] theorem State.clearSlot_noticesAtPurge (s : State) (a : Nat) : (s.clearSlot a).noticesAtPurge = s.noticesAtPurge := rfl
@[simp] theorem State.clearSlot_marker (s : State) (a : Nat) : (s.clearSlot a).marker = s.marker := rfl
@[simp] theorem State.clearSlot_restartKind (s : State) (a : Nat) : (s.clearSlot a).restartKind = s.restartKind := rfl
@[simp] theorem State.clearSlot_restartCause (s : State) (a : Nat) : (s.clearSlot a).restartCause = s.restartCause := rfl
@[simp] theorem State.clearSlot_purgeFinished (s : State) (a : Nat) : (s.clearSlot a).purgeFinished = s.purgeFinished := rfl
@[simp] theorem State.clearSlot_pwrgood (s : State) (a : Nat) : (s.clearSlot a).pwrgood = s.pwrgood := rfl
@[simp] theorem State.clearSlot_resetAsserted (s : State) (a : Nat) : (s.clearSlot a).resetAsserted = s.resetAsserted := rfl
@[simp] theorem State.clearSlot_buffer (s : State) (a : Nat) : (s.clearSlot a).buffer = s.buffer := rfl
@[simp] theorem State.clearSlot_sdo (s : State) (a : Nat) : (s.clearSlot a).sdo = s.sdo := rfl
@[simp] theorem State.clearSlot_notices (s : State) (a : Nat) : (s.clearSlot a).notices = s.notices := rfl
@[simp] theorem State.clearSlot_cycle (s : State) (a : Nat) : (s.clearSlot a).cycle = s.cycle := rfl
@[simp] theorem State.clearSlot_linkOut (s : State) (a : Nat) : (s.clearSlot a).linkOut = s.linkOut := rfl
@[simp] theorem State.clearSlot_verifications (s : State) (a : Nat) : (s.clearSlot a).verifications = s.verifications := rfl
@[simp] theorem State.clearSlot_heads (s : State) (a : Nat) : (s.clearSlot a).heads = s.heads := rfl
@[simp] theorem State.clearSlot_lanes (s : State) (a : Nat) : (s.clearSlot a).lanes = s.lanes := rfl
@[simp] theorem State.clearSlot_lots (s : State) (a : Nat) : (s.clearSlot a).lots = s.lots := rfl
@[simp] theorem State.clearSlot_classes (s : State) (a : Nat) : (s.clearSlot a).classes = s.classes := rfl
@[simp] theorem State.clearSlot_bulks (s : State) (a : Nat) : (s.clearSlot a).bulks = s.bulks := rfl
@[simp] theorem State.clearSlot_chests (s : State) (a : Nat) : (s.clearSlot a).chests = s.chests := rfl
@[simp] theorem State.clearSlot_pool (s : State) (a : Nat) : (s.clearSlot a).pool = s.pool := rfl
@[simp] theorem State.clearSlot_lotOf (s : State) (a : Nat) (x : Nat) :
    (s.clearSlot a).lot? x = s.lot? x := by
  simp only [State.lot?, State.clearSlot_lots]
@[simp] theorem State.clearSlot_classOf (s : State) (a : Nat) (x : Nat) :
    (s.clearSlot a).class? x = s.class? x := by
  simp only [State.class?, State.clearSlot_classes]
@[simp] theorem State.clearSlot_bulkOf (s : State) (a : Nat) (x : Nat) :
    (s.clearSlot a).bulk? x = s.bulk? x := by
  simp only [State.bulk?, State.clearSlot_bulks]
@[simp] theorem State.clearSlot_laneOf (s : State) (a : Nat) (x : Nat) :
    (s.clearSlot a).lane? x = s.lane? x := by
  simp only [State.lane?, State.clearSlot_lanes]
@[simp] theorem State.clearSlot_chestOf (s : State) (a : Nat) (x : Nat) :
    (s.clearSlot a).chest? x = s.chest? x := by
  simp only [State.chest?, State.clearSlot_chests]
@[simp] theorem State.clearSlot_verification (s : State) (a : Nat) (x : Nat) :
    (s.clearSlot a).verification x = s.verification x := by
  simp only [State.verification, State.clearSlot_verifications]
@[simp] theorem State.clearSlot_head (s : State) (a : Nat) (x : Nat) :
    (s.clearSlot a).head x = s.head x := by
  simp only [State.head, State.clearSlot_heads]
@[simp] theorem State.clearSlot_notice (s : State) (a : Nat) (x : NoticeKind) :
    (s.clearSlot a).notice x = s.notice x := by
  simp only [State.notice, State.clearSlot_notices]
@[simp] theorem State.clearSlot_lotD (s : State) (a : Nat) (x : Nat) :
    (s.clearSlot a).lotD x = s.lotD x := by
  simp only [State.lotD, State.clearSlot_lotOf]
@[simp] theorem State.clearSlot_classD (s : State) (a : Nat) (x : Nat) :
    (s.clearSlot a).classD x = s.classD x := by
  simp only [State.classD, State.clearSlot_classOf]
@[simp] theorem State.clearSlot_bulkD (s : State) (a : Nat) (x : Nat) :
    (s.clearSlot a).bulkD x = s.bulkD x := by
  simp only [State.bulkD, State.clearSlot_bulkOf]
@[simp] theorem State.clearSlot_laneD (s : State) (a : Nat) (x : Nat) :
    (s.clearSlot a).laneD x = s.laneD x := by
  simp only [State.laneD, State.clearSlot_laneOf]
@[simp] theorem State.clearSlot_chestD (s : State) (a : Nat) (x : Nat) :
    (s.clearSlot a).chestD x = s.chestD x := by
  simp only [State.chestD, State.clearSlot_chestOf]
@[simp] theorem State.placeResult_pending (s : State) (a : Nat) (y : Answer) : (s.placeResult a y).pending = s.pending := rfl
@[simp] theorem State.placeResult_part (s : State) (a : Nat) (y : Answer) : (s.placeResult a y).part = s.part := rfl
@[simp] theorem State.placeResult_purgeTimer (s : State) (a : Nat) (y : Answer) : (s.placeResult a y).purgeTimer = s.purgeTimer := rfl
@[simp] theorem State.placeResult_noticesAtPurge (s : State) (a : Nat) (y : Answer) : (s.placeResult a y).noticesAtPurge = s.noticesAtPurge := rfl
@[simp] theorem State.placeResult_marker (s : State) (a : Nat) (y : Answer) : (s.placeResult a y).marker = s.marker := rfl
@[simp] theorem State.placeResult_restartKind (s : State) (a : Nat) (y : Answer) : (s.placeResult a y).restartKind = s.restartKind := rfl
@[simp] theorem State.placeResult_restartCause (s : State) (a : Nat) (y : Answer) : (s.placeResult a y).restartCause = s.restartCause := rfl
@[simp] theorem State.placeResult_purgeFinished (s : State) (a : Nat) (y : Answer) : (s.placeResult a y).purgeFinished = s.purgeFinished := rfl
@[simp] theorem State.placeResult_pwrgood (s : State) (a : Nat) (y : Answer) : (s.placeResult a y).pwrgood = s.pwrgood := rfl
@[simp] theorem State.placeResult_resetAsserted (s : State) (a : Nat) (y : Answer) : (s.placeResult a y).resetAsserted = s.resetAsserted := rfl
@[simp] theorem State.placeResult_buffer (s : State) (a : Nat) (y : Answer) : (s.placeResult a y).buffer = s.buffer := rfl
@[simp] theorem State.placeResult_sdo (s : State) (a : Nat) (y : Answer) : (s.placeResult a y).sdo = s.sdo := rfl
@[simp] theorem State.placeResult_notices (s : State) (a : Nat) (y : Answer) : (s.placeResult a y).notices = s.notices := rfl
@[simp] theorem State.placeResult_cycle (s : State) (a : Nat) (y : Answer) : (s.placeResult a y).cycle = s.cycle := rfl
@[simp] theorem State.placeResult_linkOut (s : State) (a : Nat) (y : Answer) : (s.placeResult a y).linkOut = s.linkOut := rfl
@[simp] theorem State.placeResult_verifications (s : State) (a : Nat) (y : Answer) : (s.placeResult a y).verifications = s.verifications := rfl
@[simp] theorem State.placeResult_heads (s : State) (a : Nat) (y : Answer) : (s.placeResult a y).heads = s.heads := rfl
@[simp] theorem State.placeResult_waits (s : State) (a : Nat) (y : Answer) : (s.placeResult a y).waits = s.waits := rfl
@[simp] theorem State.placeResult_lanes (s : State) (a : Nat) (y : Answer) : (s.placeResult a y).lanes = s.lanes := rfl
@[simp] theorem State.placeResult_lots (s : State) (a : Nat) (y : Answer) : (s.placeResult a y).lots = s.lots := rfl
@[simp] theorem State.placeResult_classes (s : State) (a : Nat) (y : Answer) : (s.placeResult a y).classes = s.classes := rfl
@[simp] theorem State.placeResult_bulks (s : State) (a : Nat) (y : Answer) : (s.placeResult a y).bulks = s.bulks := rfl
@[simp] theorem State.placeResult_chests (s : State) (a : Nat) (y : Answer) : (s.placeResult a y).chests = s.chests := rfl
@[simp] theorem State.placeResult_pool (s : State) (a : Nat) (y : Answer) : (s.placeResult a y).pool = s.pool := rfl
@[simp] theorem State.placeResult_lotOf (s : State) (a : Nat) (y : Answer) (x : Nat) :
    (s.placeResult a y).lot? x = s.lot? x := by
  simp only [State.lot?, State.placeResult_lots]
@[simp] theorem State.placeResult_classOf (s : State) (a : Nat) (y : Answer) (x : Nat) :
    (s.placeResult a y).class? x = s.class? x := by
  simp only [State.class?, State.placeResult_classes]
@[simp] theorem State.placeResult_bulkOf (s : State) (a : Nat) (y : Answer) (x : Nat) :
    (s.placeResult a y).bulk? x = s.bulk? x := by
  simp only [State.bulk?, State.placeResult_bulks]
@[simp] theorem State.placeResult_laneOf (s : State) (a : Nat) (y : Answer) (x : Nat) :
    (s.placeResult a y).lane? x = s.lane? x := by
  simp only [State.lane?, State.placeResult_lanes]
@[simp] theorem State.placeResult_chestOf (s : State) (a : Nat) (y : Answer) (x : Nat) :
    (s.placeResult a y).chest? x = s.chest? x := by
  simp only [State.chest?, State.placeResult_chests]
@[simp] theorem State.placeResult_verification (s : State) (a : Nat) (y : Answer) (x : Nat) :
    (s.placeResult a y).verification x = s.verification x := by
  simp only [State.verification, State.placeResult_verifications]
@[simp] theorem State.placeResult_head (s : State) (a : Nat) (y : Answer) (x : Nat) :
    (s.placeResult a y).head x = s.head x := by
  simp only [State.head, State.placeResult_heads]
@[simp] theorem State.placeResult_wait (s : State) (a : Nat) (y : Answer) (x : Nat) :
    (s.placeResult a y).wait x = s.wait x := by
  simp only [State.wait, State.placeResult_waits]
@[simp] theorem State.placeResult_notice (s : State) (a : Nat) (y : Answer) (x : NoticeKind) :
    (s.placeResult a y).notice x = s.notice x := by
  simp only [State.notice, State.placeResult_notices]
@[simp] theorem State.placeResult_lotD (s : State) (a : Nat) (y : Answer) (x : Nat) :
    (s.placeResult a y).lotD x = s.lotD x := by
  simp only [State.lotD, State.placeResult_lotOf]
@[simp] theorem State.placeResult_classD (s : State) (a : Nat) (y : Answer) (x : Nat) :
    (s.placeResult a y).classD x = s.classD x := by
  simp only [State.classD, State.placeResult_classOf]
@[simp] theorem State.placeResult_bulkD (s : State) (a : Nat) (y : Answer) (x : Nat) :
    (s.placeResult a y).bulkD x = s.bulkD x := by
  simp only [State.bulkD, State.placeResult_bulkOf]
@[simp] theorem State.placeResult_laneD (s : State) (a : Nat) (y : Answer) (x : Nat) :
    (s.placeResult a y).laneD x = s.laneD x := by
  simp only [State.laneD, State.placeResult_laneOf]
@[simp] theorem State.placeResult_chestD (s : State) (a : Nat) (y : Answer) (x : Nat) :
    (s.placeResult a y).chestD x = s.chestD x := by
  simp only [State.chestD, State.placeResult_chestOf]
@[simp] theorem State.answerCall_pending (s : State) (a : Nat) (c : AnswerCode) (v : Nat) :
    (s.answerCall a c v).pending = s.pending := by
  simp only [State.answerCall, State.placeResult_pending, State.clearSlot_pending]
@[simp] theorem State.answerCall_part (s : State) (a : Nat) (c : AnswerCode) (v : Nat) :
    (s.answerCall a c v).part = s.part := by
  simp only [State.answerCall, State.placeResult_part, State.clearSlot_part]
@[simp] theorem State.answerCall_purgeTimer (s : State) (a : Nat) (c : AnswerCode) (v : Nat) :
    (s.answerCall a c v).purgeTimer = s.purgeTimer := by
  simp only [State.answerCall, State.placeResult_purgeTimer, State.clearSlot_purgeTimer]
@[simp] theorem State.answerCall_noticesAtPurge (s : State) (a : Nat) (c : AnswerCode) (v : Nat) :
    (s.answerCall a c v).noticesAtPurge = s.noticesAtPurge := by
  simp only [State.answerCall, State.placeResult_noticesAtPurge, State.clearSlot_noticesAtPurge]
@[simp] theorem State.answerCall_marker (s : State) (a : Nat) (c : AnswerCode) (v : Nat) :
    (s.answerCall a c v).marker = s.marker := by
  simp only [State.answerCall, State.placeResult_marker, State.clearSlot_marker]
@[simp] theorem State.answerCall_restartKind (s : State) (a : Nat) (c : AnswerCode) (v : Nat) :
    (s.answerCall a c v).restartKind = s.restartKind := by
  simp only [State.answerCall, State.placeResult_restartKind, State.clearSlot_restartKind]
@[simp] theorem State.answerCall_restartCause (s : State) (a : Nat) (c : AnswerCode) (v : Nat) :
    (s.answerCall a c v).restartCause = s.restartCause := by
  simp only [State.answerCall, State.placeResult_restartCause, State.clearSlot_restartCause]
@[simp] theorem State.answerCall_purgeFinished (s : State) (a : Nat) (c : AnswerCode) (v : Nat) :
    (s.answerCall a c v).purgeFinished = s.purgeFinished := by
  simp only [State.answerCall, State.placeResult_purgeFinished, State.clearSlot_purgeFinished]
@[simp] theorem State.answerCall_pwrgood (s : State) (a : Nat) (c : AnswerCode) (v : Nat) :
    (s.answerCall a c v).pwrgood = s.pwrgood := by
  simp only [State.answerCall, State.placeResult_pwrgood, State.clearSlot_pwrgood]
@[simp] theorem State.answerCall_resetAsserted (s : State) (a : Nat) (c : AnswerCode) (v : Nat) :
    (s.answerCall a c v).resetAsserted = s.resetAsserted := by
  simp only [State.answerCall, State.placeResult_resetAsserted, State.clearSlot_resetAsserted]
@[simp] theorem State.answerCall_buffer (s : State) (a : Nat) (c : AnswerCode) (v : Nat) :
    (s.answerCall a c v).buffer = s.buffer := by
  simp only [State.answerCall, State.placeResult_buffer, State.clearSlot_buffer]
@[simp] theorem State.answerCall_sdo (s : State) (a : Nat) (c : AnswerCode) (v : Nat) :
    (s.answerCall a c v).sdo = s.sdo := by
  simp only [State.answerCall, State.placeResult_sdo, State.clearSlot_sdo]
@[simp] theorem State.answerCall_notices (s : State) (a : Nat) (c : AnswerCode) (v : Nat) :
    (s.answerCall a c v).notices = s.notices := by
  simp only [State.answerCall, State.placeResult_notices, State.clearSlot_notices]
@[simp] theorem State.answerCall_cycle (s : State) (a : Nat) (c : AnswerCode) (v : Nat) :
    (s.answerCall a c v).cycle = s.cycle := by
  simp only [State.answerCall, State.placeResult_cycle, State.clearSlot_cycle]
@[simp] theorem State.answerCall_linkOut (s : State) (a : Nat) (c : AnswerCode) (v : Nat) :
    (s.answerCall a c v).linkOut = s.linkOut := by
  simp only [State.answerCall, State.placeResult_linkOut, State.clearSlot_linkOut]
@[simp] theorem State.answerCall_verifications (s : State) (a : Nat) (c : AnswerCode) (v : Nat) :
    (s.answerCall a c v).verifications = s.verifications := by
  simp only [State.answerCall, State.placeResult_verifications, State.clearSlot_verifications]
@[simp] theorem State.answerCall_heads (s : State) (a : Nat) (c : AnswerCode) (v : Nat) :
    (s.answerCall a c v).heads = s.heads := by
  simp only [State.answerCall, State.placeResult_heads, State.clearSlot_heads]
@[simp] theorem State.answerCall_lanes (s : State) (a : Nat) (c : AnswerCode) (v : Nat) :
    (s.answerCall a c v).lanes = s.lanes := by
  simp only [State.answerCall, State.placeResult_lanes, State.clearSlot_lanes]
@[simp] theorem State.answerCall_lots (s : State) (a : Nat) (c : AnswerCode) (v : Nat) :
    (s.answerCall a c v).lots = s.lots := by
  simp only [State.answerCall, State.placeResult_lots, State.clearSlot_lots]
@[simp] theorem State.answerCall_classes (s : State) (a : Nat) (c : AnswerCode) (v : Nat) :
    (s.answerCall a c v).classes = s.classes := by
  simp only [State.answerCall, State.placeResult_classes, State.clearSlot_classes]
@[simp] theorem State.answerCall_bulks (s : State) (a : Nat) (c : AnswerCode) (v : Nat) :
    (s.answerCall a c v).bulks = s.bulks := by
  simp only [State.answerCall, State.placeResult_bulks, State.clearSlot_bulks]
@[simp] theorem State.answerCall_chests (s : State) (a : Nat) (c : AnswerCode) (v : Nat) :
    (s.answerCall a c v).chests = s.chests := by
  simp only [State.answerCall, State.placeResult_chests, State.clearSlot_chests]
@[simp] theorem State.answerCall_pool (s : State) (a : Nat) (c : AnswerCode) (v : Nat) :
    (s.answerCall a c v).pool = s.pool := by
  simp only [State.answerCall, State.placeResult_pool, State.clearSlot_pool]
@[simp] theorem State.answerCall_lotOf (s : State) (a : Nat) (c : AnswerCode) (v : Nat) (x : Nat) :
    (s.answerCall a c v).lot? x = s.lot? x := by
  simp only [State.lot?, State.answerCall_lots]
@[simp] theorem State.answerCall_classOf (s : State) (a : Nat) (c : AnswerCode) (v : Nat) (x : Nat) :
    (s.answerCall a c v).class? x = s.class? x := by
  simp only [State.class?, State.answerCall_classes]
@[simp] theorem State.answerCall_bulkOf (s : State) (a : Nat) (c : AnswerCode) (v : Nat) (x : Nat) :
    (s.answerCall a c v).bulk? x = s.bulk? x := by
  simp only [State.bulk?, State.answerCall_bulks]
@[simp] theorem State.answerCall_laneOf (s : State) (a : Nat) (c : AnswerCode) (v : Nat) (x : Nat) :
    (s.answerCall a c v).lane? x = s.lane? x := by
  simp only [State.lane?, State.answerCall_lanes]
@[simp] theorem State.answerCall_chestOf (s : State) (a : Nat) (c : AnswerCode) (v : Nat) (x : Nat) :
    (s.answerCall a c v).chest? x = s.chest? x := by
  simp only [State.chest?, State.answerCall_chests]
@[simp] theorem State.answerCall_verification (s : State) (a : Nat) (c : AnswerCode) (v : Nat) (x : Nat) :
    (s.answerCall a c v).verification x = s.verification x := by
  simp only [State.verification, State.answerCall_verifications]
@[simp] theorem State.answerCall_head (s : State) (a : Nat) (c : AnswerCode) (v : Nat) (x : Nat) :
    (s.answerCall a c v).head x = s.head x := by
  simp only [State.head, State.answerCall_heads]
@[simp] theorem State.answerCall_notice (s : State) (a : Nat) (c : AnswerCode) (v : Nat) (x : NoticeKind) :
    (s.answerCall a c v).notice x = s.notice x := by
  simp only [State.notice, State.answerCall_notices]
@[simp] theorem State.answerCall_lotD (s : State) (a : Nat) (c : AnswerCode) (v : Nat) (x : Nat) :
    (s.answerCall a c v).lotD x = s.lotD x := by
  simp only [State.lotD, State.answerCall_lotOf]
@[simp] theorem State.answerCall_classD (s : State) (a : Nat) (c : AnswerCode) (v : Nat) (x : Nat) :
    (s.answerCall a c v).classD x = s.classD x := by
  simp only [State.classD, State.answerCall_classOf]
@[simp] theorem State.answerCall_bulkD (s : State) (a : Nat) (c : AnswerCode) (v : Nat) (x : Nat) :
    (s.answerCall a c v).bulkD x = s.bulkD x := by
  simp only [State.bulkD, State.answerCall_bulkOf]
@[simp] theorem State.answerCall_laneD (s : State) (a : Nat) (c : AnswerCode) (v : Nat) (x : Nat) :
    (s.answerCall a c v).laneD x = s.laneD x := by
  simp only [State.laneD, State.answerCall_laneOf]
@[simp] theorem State.answerCall_chestD (s : State) (a : Nat) (c : AnswerCode) (v : Nat) (x : Nat) :
    (s.answerCall a c v).chestD x = s.chestD x := by
  simp only [State.chestD, State.answerCall_chestOf]

theorem State.clearSlot_station (s : State) (a b : Nat) :
    (s.clearSlot a).station b = if b = a then { s.station a with slot := none } else s.station b :=
  State.modStation_station s a b (fun v => { v with slot := none })

theorem State.clearSlot_wait (s : State) (a b : Nat) : (s.clearSlot a).wait b = if b = a then .none else s.wait b :=
  State.setWait_wait (s.modStation a _) a b .none

theorem State.placeResult_station (s : State) (a b : Nat) (x : Answer) :
    (s.placeResult a x).station b =
      if b = a ∧ (s.station a).join.hears = true then
        { s.station a with answers := placeResultIn (s.station a).answers x }
      else s.station b := by
  unfold State.placeResult
  rw [State.modStation_station]
  by_cases hb : b = a <;> by_cases hj : (s.station a).join.hears = true <;> simp [hb, hj]

@[simp] theorem State.placeAnswer_wait (s : State) (a b : Nat) (x : Answer) :
    (s.placeAnswer a x).wait b = s.wait b := rfl

theorem State.placeAnswer_station (s : State) (a b : Nat) (x : Answer) :
    (s.placeAnswer a x).station b =
      if b = a ∧ (s.station a).join.hears = true then
        { s.station a with answers := placeAtEnd (s.station a).answers x }
      else s.station b := by
  unfold State.placeAnswer
  rw [State.modStation_station]
  by_cases hb : b = a <;> by_cases hj : (s.station a).join.hears = true <;> simp [hb, hj]

/-- A call taken and its result placed: the caller's slot is empty, its list holds the result, its wait is NONE. -/
theorem State.answersCall_placed (s : State) (a : Nat) (x : Answer) (h : (s.station a).join.hears = true) :
    s.answersCall ((s.clearSlot a).placeResult a x) a x := by
  refine ⟨?_, ?_, fun b hb => ⟨?_, ?_⟩⟩
  · simp [State.placeResult_station, State.clearSlot_station, h, Station.answered]
  · simp [State.clearSlot_wait]
  · simp [State.placeResult_station, State.clearSlot_station, hb]
  · simp [State.clearSlot_wait, hb]

theorem State.answersCall_answerCall (s : State) (a : Nat) (c : AnswerCode) (v : Nat)
    (h : (s.station a).join.hears = true) : s.answersCall (s.answerCall a c v) a (.answer c v) :=
  State.answersCall_placed s a (.answer c v) h

/-- Changes that leave the stations and the waits alone keep what a call's taking did. -/
theorem State.answersCall_congr {s u t t' : State} {a : Nat} {x : Answer} (h : u.answersCall t a x)
    (h1 : ∀ b, u.station b = s.station b) (h2 : ∀ b, u.wait b = s.wait b)
    (h3 : ∀ b, t'.station b = t.station b) (h4 : ∀ b, t'.wait b = t.wait b) : s.answersCall t' a x := by
  refine ⟨?_, ?_, fun b hb => ⟨?_, ?_⟩⟩
  · rw [h3, h.1, h1]
  · rw [h4, h.2.1]
  · rw [h3, (h.2.2 b hb).1, h1]
  · rw [h4, (h.2.2 b hb).2, h2]

/-! ## Charges -/

theorem State.countCharge_eq (s : State) (k i m g : Nat) :
    s.countCharge k i m g =
      { s with bulks := (s.countCharge k i m g).bulks, notices := (s.countCharge k i m g).notices } := by
  unfold State.countCharge; split <;> rfl

theorem State.countCharge_bulk? (s : State) (k i m g j : Nat) :
    (s.countCharge k i m g).bulk? j = if j = k then (s.bulk? k).map (fun b => b.count i m g) else s.bulk? j := by
  unfold State.countCharge; split <;> simp [State.modBulk_bulk?]

theorem State.countCharge_notice (s : State) (k i m g : Nat) :
    s.raisesIf (s.countCharge k i m g) (g + g * 20 / 1000 < m) .overshoot k := by
  intro j
  unfold State.countCharge
  by_cases h : g + g * 20 / 1000 < m
  · by_cases hj : j = .overshoot <;> simp [overshoots, h, hj, State.raise_notice]
  · simp [overshoots, h]

/-- A charge counted in a component that is there. -/
theorem State.countCharge_counts {s : State} {k i m g : Nat} {b : Bulk} {c : Component} (hb : s.bulk? k = some b)
    (hc : b.components[i]? = some c) : s.countsCharge (s.countCharge k i m g) k b i c m g := by
  refine ⟨?_, fun j hj => ?_, State.countCharge_notice s k i m g⟩
  · rw [State.countCharge_bulk?, if_pos rfl, hb]
    have : b.components.modify i (fun c => { c with charged := c.charged + m, count := bump c.count, claim := .none }) =
        b.components.set i { c with charged := c.charged + m, count := bump c.count, claim := .none } := by
      rw [List.modify_eq_set_getElem?, hc]; rfl
    simp only [Option.map_some, Bulk.count, this]; rfl
  · rw [State.countCharge_bulk?, if_neg hj]

/-! ## Completion (R12) -/

theorem State.allMarked_iff (s : State) (k : Nat) :
    (s.acceptedChests k).all (fun e => e.2.mark == .marked) = true ↔ s.allMarked k := by
  simp only [State.acceptedChests, List.all_eq_true, List.mem_filter, beq_iff_eq, State.allMarked, and_imp]

/-- A lot's completion is judged: it becomes COMPLETE with its notice, or nothing changes. -/
theorem State.evalComplete_some {s : State} {k : Nat} {l : Lot} (h : s.lot? k = some l) :
    (l.state = .finishing ∧ l.outstanding = 0 ∧ s.allMarked k →
      s.evalComplete k = (s.modLot k (fun l => { l with state := .complete })).raise .lotComplete (some k)) ∧
    (¬ (l.state = .finishing ∧ l.outstanding = 0 ∧ s.allMarked k) → s.evalComplete k = s) := by
  unfold State.evalComplete
  rw [h, ← State.allMarked_iff]
  exact ⟨fun hc => if_pos hc, fun hc => if_neg hc⟩

theorem State.evalComplete_none {s : State} {k : Nat} (h : s.lot? k = none) : s.evalComplete k = s := by
  unfold State.evalComplete; rw [h]

/-- A judgement of completion changes lots and notices alone. -/
theorem State.evalComplete_eq (s : State) (k : Nat) :
    s.evalComplete k = { s with lots := (s.evalComplete k).lots, notices := (s.evalComplete k).notices } := by
  cases h : s.lot? k with
  | none => rw [State.evalComplete_none h]
  | some l =>
    by_cases hc : l.state = .finishing ∧ l.outstanding = 0 ∧ s.allMarked k
    · rw [(State.evalComplete_some h).1 hc]; rfl
    · rw [(State.evalComplete_some h).2 hc]

theorem State.evalComplete_lot? (s : State) (k j : Nat) (hj : j ≠ k) : (s.evalComplete k).lot? j = s.lot? j := by
  cases h : s.lot? k with
  | none => rw [State.evalComplete_none h]
  | some l =>
    by_cases hc : l.state = .finishing ∧ l.outstanding = 0 ∧ s.allMarked k
    · rw [(State.evalComplete_some h).1 hc]; simp [State.modLot_lot?, hj]
    · rw [(State.evalComplete_some h).2 hc]

/-! ## Unmapping (R10, R74) -/

/-- The step of an unmapping of a lot's lanes at one lane number. -/
def State.unmapStep (k : Nat) (t : State) (n : Nat) : State :=
  match t.lane? n with
  | some l => if l.feeds k then t.unmapLane n else t
  | none => t

theorem State.unmapLanesOf_eq_foldl (s : State) (k : Nat) :
    s.unmapLanesOf k = laneNumbers.foldl (State.unmapStep k) s := rfl

/-- A lane mapped to the lot is unmapped and counted off; a lane that is not is left. -/
theorem State.unmapStep_cases (s : State) (k n : Nat) :
    (s.laneIs n (fun l => l.feeds k) = true ∧ ∃ l, s.lane? n = some l ∧
      s.unmapStep k n = ((s.setLane n none).setWait l.scale .none).modLot k Lot.unmapped) ∨
    (s.laneIs n (fun l => l.feeds k) = false ∧ s.unmapStep k n = s) := by
  unfold State.unmapStep State.laneIs
  cases h : s.lane? n with
  | none => exact Or.inr ⟨rfl, rfl⟩
  | some l =>
    by_cases hf : l.feeds k = true
    · refine Or.inl ⟨hf, l, rfl, ?_⟩
      simp only [hf, if_true, State.unmapLane, h]
      unfold Lane.feeds at hf
      cases ht : l.target with
      | hold => simp [ht] at hf
      | lot j a => simp [ht] at hf; subst hf; rfl
    · simp only [Bool.not_eq_true] at hf
      exact Or.inr ⟨hf, by simp [hf]⟩

/-- What the unmapping of a lot's lanes among some lane numbers leaves. -/
theorem State.unmapSteps (k : Nat) (ns : List Nat) (hn : ns.Nodup) (s : State) :
    let t := ns.foldl (State.unmapStep k) s
    let gone := ns.filter (fun n => s.laneIs n (fun l => l.feeds k))
    t = { s with lanes := t.lanes, waits := t.waits, lots := t.lots } ∧
    (∀ n, t.lane? n = if n ∈ gone then none else s.lane? n) ∧
    (∀ b, t.wait b = if gone.any (fun n => s.laneIs n (fun l => l.scale == b)) then .none else s.wait b) ∧
    (∀ j, j ≠ k → t.lot? j = s.lot? j) ∧
    (s.lot? k = none → t.lot? k = none) ∧
    (∀ l, s.lot? k = some l → l.state ≠ .packing →
      t.lot? k = some { l with mappedLanes := l.mappedLanes - gone.length }) := by
  induction ns generalizing s with
  | nil => exact ⟨rfl, by simp, by simp, fun _ _ => rfl, id, fun _ h _ => h⟩
  | cons n ns ih =>
    obtain ⟨hn1, hn2⟩ := List.nodup_cons.mp hn
    dsimp only at ih ⊢
    rw [List.foldl_cons]
    rcases s.unmapStep_cases k n with ⟨hf, r, hr, he⟩ | ⟨hf, he⟩
    · rw [he]
      let u : State := ((s.setLane n none).setWait r.scale .none).modLot k Lot.unmapped
      have hlane : ∀ p : Lane → Bool, ∀ m, m ∈ ns → u.laneIs m p = s.laneIs m p := by
        intro p m hm
        have : m ≠ n := fun e => hn1 (e ▸ hm)
        simp [u, State.laneIs, State.setLane_lane?, this]
      have hgone : ns.filter (fun m => u.laneIs m (fun l => l.feeds k)) =
          ns.filter (fun m => s.laneIs m (fun l => l.feeds k)) := List.filter_congr (hlane _)
      have hw : ∀ b, u.wait b = if b = r.scale then .none else s.wait b := by
        intro b; simp [u, State.setWait_wait]
      obtain ⟨h1, h2, h6, h3, h4, h5⟩ := ih hn2 u
      rw [hgone] at h2 h5 h6
      have hany : ∀ b, (ns.filter (fun m => s.laneIs m (fun l => l.feeds k))).any
          (fun m => u.laneIs m (fun l => l.scale == b)) = (ns.filter (fun m => s.laneIs m (fun l => l.feeds k))).any
          (fun m => s.laneIs m (fun l => l.scale == b)) := by
        intro b
        rw [Bool.eq_iff_iff]
        simp only [List.any_eq_true]
        exact ⟨fun ⟨m, hm, e⟩ => ⟨m, hm, by rwa [← hlane _ m (List.mem_of_mem_filter hm)]⟩,
          fun ⟨m, hm, e⟩ => ⟨m, hm, by rwa [hlane _ m (List.mem_of_mem_filter hm)]⟩⟩
      simp only [hany] at h6
      change _ = _ ∧ _
      generalize ns.foldl (State.unmapStep k) u = t at *
      rw [List.filter_cons, if_pos hf]
      refine ⟨?_, ?_, ?_, ?_, ?_, ?_⟩
      · rw [h1]; rfl
      · intro m
        rw [h2 m]
        by_cases hm : m = n
        · subst hm; simp [u]
        · simp [u, hm, State.setLane_lane?]
      · intro b
        rw [h6 b, hw b, List.any_cons]
        have : s.laneIs n (fun l => l.scale == b) = decide (b = r.scale) := by
          simp [State.laneIs, hr, Bool.beq_eq_decide_eq, eq_comm]
        rw [this]
        by_cases hb : b = r.scale
        · simp [hb]
        · simp [hb]
      · intro j hj; rw [h3 j hj]; simp [u, State.modLot_lot?, hj]
      · intro h; exact h4 (by simp [u, h])
      · intro l hl hs
        have := h5 { l with mappedLanes := l.mappedLanes - 1 }
          (by simp [u, hl, Lot.unmapped, hs]) hs
        rw [this]
        simp only [List.length_cons]
        congr 2; omega
    · rw [he, List.filter_cons, if_neg (by simp [hf])]
      exact ih hn2 s

/-- What the unmapping of all of a lot's lanes leaves. -/
theorem State.unmapLanesOf_spec (s : State) (k : Nat) :
    let t := s.unmapLanesOf k
    t = { s with lanes := t.lanes, waits := t.waits, lots := t.lots } ∧
    (∀ n, t.lane? n = if n ∈ s.feeders k then none else s.lane? n) ∧
    (∀ b, t.wait b = if s.feedsFrom k b then .none else s.wait b) ∧
    (∀ j, j ≠ k → t.lot? j = s.lot? j) ∧
    (s.lot? k = none → t.lot? k = none) ∧
    (∀ l, s.lot? k = some l → l.state ≠ .packing →
      t.lot? k = some { l with mappedLanes := l.mappedLanes - (s.feeders k).length }) := by
  exact State.unmapSteps k laneNumbers laneNumbers_nodup s

/-! ## Mark queues (R114) -/

/-- A job joins a queue: the head, the chest and its lot. -/
theorem State.appendJob_eq (s : State) (a id : Nat) (kind : JobKind) :
    let t := s.appendJob a id kind
    t = { s with heads := t.heads, chests := t.chests, lots := t.lots } := by
  unfold State.appendJob; dsimp only; split <;> rfl

theorem State.appendJob_head (s : State) (a b id : Nat) (kind : JobKind) :
    (s.appendJob a id kind).head b =
      if b = a then (s.head a).joined { chest := id, kind := kind } else s.head b := by
  unfold State.appendJob; dsimp only; split <;> simp [State.modHead_head, Head.joined]

theorem State.appendJob_chest? (s : State) (a id j : Nat) (kind : JobKind) :
    (s.appendJob a id kind).chest? j = if j = id then (s.chest? id).map (fun c => c.queuedAt kind a) else s.chest? j := by
  unfold State.appendJob; dsimp only
  split <;> simp [State.modChest_chest?, Chest.queuedAt]

theorem State.appendJob_lot? {s : State} {a id k n b : Nat} {kind : JobKind} {c : Chest} (hc : s.chest? id = some c)
    (hp : c.place = .accepted k n b) (j : Nat) :
    (s.appendJob a id kind).lot? j =
      if j = k then (s.lot? k).map (fun l => { l with outstanding := l.outstanding + 1 }) else s.lot? j := by
  unfold State.appendJob; dsimp only
  simp [State.chestD, hc, hp, State.modLot_lot?]

/-! ## Acceptance, fill and removal (R9, R10, R14) -/

/-- What an acceptance leaves, its lot's fill apart. -/
theorem State.acceptChest_spec {s : State} {k : Nat} {l : Lot} (hl : s.lot? k = some l) (id a x : Nat) (c : Chest)
    (w : Bool) :
    let t := s.acceptChest id c k a x w
    t = { s with lots := t.lots, bulks := t.bulks, chests := t.chests, heads := t.heads } ∧
    t.chest? id = some
      ({ c with place := .accepted k (l.accepted + 1) l.bulk, recNet := some x, reprints := 0 }.queuedAt .first a) ∧
    (∀ j, j ≠ id → t.chest? j = s.chest? j) ∧
    (∀ j, t.bulk? j = if j = l.bulk then (s.bulk? j).map (fun b => { b with drawn := b.drawn + x }) else s.bulk? j) ∧
    (∀ b, t.head b = if b = a then (s.head a).joined { chest := id, kind := .first } else s.head b) ∧
    (∀ j, j ≠ k → t.lot? j = s.lot? j) ∧ t.lot? k = some (l.withChest c x w) := by
  have hD : s.lotD k = l := by simp [State.lotD, hl]
  unfold State.acceptChest
  rw [hD]
  dsimp only
  generalize hv : ((s.setChest id (some { c with
    place := .accepted k (l.accepted + 1) l.bulk, recNet := some x, reprints := 0 })).modLot k
      (fun l => l.accept c.gross c.tare x c.reweighed w)).modBulk l.bulk
      (fun u => { u with drawn := u.drawn + x }) = v
  have v0 : v = { s with lots := v.lots, bulks := v.bulks, chests := v.chests } := by rw [← hv]; rfl
  have v1 : v.chest? id = some { c with
      place := .accepted k (l.accepted + 1) l.bulk, recNet := some x, reprints := 0 } := by rw [← hv]; simp
  have v2 : ∀ j, j ≠ id → v.chest? j = s.chest? j := by intro j hj; rw [← hv]; simp [State.setChest_chest?, hj]
  have v3 : ∀ j, v.bulk? j = if j = l.bulk then (s.bulk? j).map (fun b => { b with drawn := b.drawn + x })
      else s.bulk? j := by
    intro j; rw [← hv, State.modBulk_bulk?]
    by_cases hj : j = l.bulk
    · subst hj; simp
    · simp [hj]
  have v4 : ∀ j, j ≠ k → v.lot? j = s.lot? j := by intro j hj; rw [← hv]; simp [State.modLot_lot?, hj]
  have v5 : v.lot? k = some (l.accept c.gross c.tare x c.reweighed w) := by rw [← hv]; simp [hl]
  have v6 : ∀ b, v.head b = s.head b := by intro b; rw [← hv]; rfl
  refine ⟨?_, ?_, ?_, ?_, ?_, ?_, ?_⟩
  · rw [v.appendJob_eq a id .first]
    rw [v0]
  · rw [State.appendJob_chest?, if_pos rfl, v1]; rfl
  · intro j hj; rw [State.appendJob_chest?, if_neg hj, v2 j hj]
  · intro j; rw [v.appendJob_eq a id .first]; exact v3 j
  · intro b; rw [State.appendJob_head, v6, v6]
  · intro j hj; rw [State.appendJob_lot? v1 rfl, if_neg hj, v4 j hj]
  · rw [State.appendJob_lot? v1 rfl, if_pos rfl, v5]; rfl

/-- What the fill of a lot with a mark outstanding leaves: it is FINISHING, its lanes are unmapped, LOT_FILLED is
raised. -/
theorem State.fillIfFull_spec {s : State} {k : Nat} {l : Lot} (hl : s.lot? k = some l) (hf : l.accepted = l.planned)
    (ho : l.outstanding ≠ 0) :
    let t := s.fillIfFull k
    t = { s with lots := t.lots, lanes := t.lanes, waits := t.waits, notices := t.notices } ∧
    (∀ j, j ≠ k → t.lot? j = s.lot? j) ∧
    t.lot? k = some { l with
      state := .finishing
      cause := some .filled
      mappedLanes := l.mappedLanes - (s.feeders k).length } ∧
    (∀ n, t.lane? n = if n ∈ s.feeders k then none else s.lane? n) ∧
    (∀ b, t.wait b = if s.feedsFrom k b then .none else s.wait b) ∧ s.raisesIf t True .lotFilled k := by
  unfold State.fillIfFull
  rw [hl]
  simp only [hf, if_true]
  let u : State := (s.modLot k (fun l => { l with state := .finishing, cause := some .filled })).raise
    .lotFilled (some k)
  have hu : u.lot? k = some { l with state := .finishing, cause := some .filled } := by simp [u, hl]
  have u0 : u = { s with lots := u.lots, notices := u.notices } := rfl
  obtain ⟨v1, v2, v6, v3, -, v5⟩ := u.unmapLanesOf_spec k
  have v5 := v5 _ hu (by simp)
  have hfe : u.feeders k = s.feeders k := rfl
  have hff : ∀ b, u.feedsFrom k b = s.feedsFrom k b := fun _ => rfl
  rw [hfe] at v2 v5
  change ((u.unmapLanesOf k).evalComplete k) = _ ∧ _
  generalize u.unmapLanesOf k = v at *
  have hno : ¬ (LotState.finishing = .finishing ∧ l.outstanding = 0 ∧ v.allMarked k) := fun h => ho h.2.1
  have he := (State.evalComplete_some v5).2 hno
  refine ⟨?_, ?_, ?_, ?_, ?_, ?_⟩
  · rw [he, v1]; rfl
  · intro j hj; rw [he, v3 j hj]; simp [u, State.modLot_lot?, hj]
  · rw [he, v5]; simp [hf]
  · intro n; rw [he, v2]; rfl
  · intro b; rw [he, v6, hff]; rfl
  · intro j; rw [he, v1]
    change u.notice j = _
    simp only [u, State.raise_notice]
    by_cases hj : j = .lotFilled
    · subst hj; simp
    · simp [hj]

theorem State.fillIfFull_not {s : State} {k : Nat} {l : Lot} (hl : s.lot? k = some l) (hf : l.accepted ≠ l.planned) :
    s.fillIfFull k = s := by
  unfold State.fillIfFull; rw [hl]; simp [hf]

/-- What an acceptance leaves, with the fill that it may bring. -/
theorem State.acceptFill_spec {s : State} {k : Nat} {l : Lot} (hl : s.lot? k = some l) (id a x : Nat) (c : Chest)
    (w : Bool) :
    let t := (s.acceptChest id c k a x w).fillIfFull k
    t = { s with
      lots := t.lots
      bulks := t.bulks
      chests := t.chests
      heads := t.heads
      lanes := t.lanes
      waits := t.waits
      notices := t.notices } ∧
    s.accepts t id c k l a x w ∧
    (∀ n, t.lane? n = if l.accepted + 1 = l.planned ∧ n ∈ s.feeders k then none else s.lane? n) ∧
    (∀ b, t.wait b = if l.accepted + 1 = l.planned ∧ s.feedsFrom k b then .none else s.wait b) ∧
    s.raisesIf t (l.accepted + 1 = l.planned) .lotFilled k := by
  obtain ⟨h0, h1, h2, h3, h4, h5, h6⟩ := State.acceptChest_spec hl id a x c w
  dsimp only at *
  generalize s.acceptChest id c k a x w = v at *
  have hfe : v.feeders k = s.feeders k := by rw [h0]; rfl
  have hn : ∀ j, v.notice j = s.notice j := by intro j; rw [h0]; rfl
  have hla : ∀ j, v.lane? j = s.lane? j := by intro j; rw [h0]; rfl
  have hff : ∀ b, v.feedsFrom k b = s.feedsFrom k b := by intro b; rw [h0]; rfl
  have hw : ∀ b, v.wait b = s.wait b := by intro b; rw [h0]; rfl
  by_cases hf : l.accepted + 1 = l.planned
  · obtain ⟨f0, f1, f2, f3, f5, f4⟩ := State.fillIfFull_spec h6 (by simpa [Lot.withChest] using hf)
      (by simp [Lot.withChest])
    generalize v.fillIfFull k = t at *
    refine ⟨?_, ⟨?_, ?_, ?_, ?_, ?_, ?_, ?_⟩, ?_, ?_, ?_⟩
    · rw [f0, h0]
    · rw [f0]; exact h1
    · intro j hj; rw [f0]; exact h2 j hj
    · intro j; rw [f0]; exact h3 j
    · intro j; rw [f0]; exact h4 j
    · intro j hj; rw [f1 j hj, h5 j hj]
    · intro h; exact absurd hf h
    · intro _; rw [f2, hfe]; rfl
    · intro n; rw [f3, hfe, hla]; simp [hf]
    · intro b; rw [f5, hff, hw]; simp [hf]
    · intro j; rw [f4 j]; simp [hf, hn]
  · have he := State.fillIfFull_not h6 (by simpa [Lot.withChest] using hf)
    rw [he]
    refine ⟨by rw [h0], ⟨h1, h2, h3, h4, h5, fun _ => h6, fun h => absurd h hf⟩, ?_, ?_, ?_⟩
    · intro n; simp [hf, hla]
    · intro b; simp [hf, hw]
    · intro j; simp [hf, hn]

/-- What the removal of a lot's last-serial chest leaves, its record apart. -/
theorem State.removeLast_spec {s : State} {id k n b x : Nat} {c : Chest} {l : Lot} (hc : s.chest? id = some c)
    (hp : c.place = .accepted k n b) (hl : s.lot? k = some l) (hx : c.recNet = some x) :
    s.removeLast id = { s with lots := (s.removeLast id).lots, bulks := (s.removeLast id).bulks } ∧
    s.removes (s.removeLast id) id c k l b x := by
  have hD : s.chestD id = c := by simp [State.chestD, hc]
  unfold State.removeLast
  rw [hD]
  dsimp only
  rw [hp, hx]
  dsimp only [Option.getD_some]
  refine ⟨rfl, ?_, ?_, ?_⟩
  · intro j hj; simp [State.modLot_lot?, hj]
  · simp only [State.modBulk_lotOf, State.modLot_self, hl, Option.map_some, State.acceptedChests, List.filter_filter]
    simp only [Lot.remove, Lot.withoutChest]
    have : (fun e : Nat × Chest => (e.1 != id && e.2.inLot k)) = (fun e => e.2.inLot k && e.1 != id) :=
      funext fun e => Bool.and_comm _ _
    rw [this]
  · intro j
    by_cases hj : j = b
    · subst hj; simp
    · simp [State.modBulk_bulk?, hj]

/-! ## Cancelled jobs (R82, R127) -/

/-- A job that leaves its queue without its chest being MARKED: the chest's job is gone, its lot counts it off, and no
lot completes. -/
theorem State.settleMark_spec {s : State} {id : Nat} {c : Chest} {m : MarkStatus} (hc : s.chest? id = some c)
    (hm : m ≠ .marked) :
    let t := s.settleMark id m
    t = { s with chests := t.chests, lots := t.lots } ∧
    (∀ j, t.chest? j = if j = id then some { c with mark := m, job := none } else s.chest? j) ∧
    ∀ k, t.lot? k = (s.lot? k).map (fun l =>
      { l with outstanding := l.outstanding - if c.inLot k then 1 else 0 }) := by
  unfold State.settleMark
  dsimp only
  generalize hv : s.modChest id (fun c => { c with mark := m, job := none }) = v
  have v0 : v = { s with chests := v.chests } := by rw [← hv]; rfl
  have v1 : v.chest? id = some { c with mark := m, job := none } := by rw [← hv]; simp [hc]
  have v2 : ∀ j, j ≠ id → v.chest? j = s.chest? j := by intro j hj; rw [← hv]; simp [State.modChest_chest?, hj]
  have vD : (v.chestD id).place = c.place := by simp [State.chestD, v1]
  have vl : ∀ k, v.lot? k = s.lot? k := by intro k; rw [v0]; rfl
  rw [vD]
  have nop : ∀ k, (∀ n b, c.place ≠ .accepted k n b) → c.inLot k = false := by
    intro k h; unfold Chest.inLot
    cases hp : c.place with
    | accepted j n b =>
      by_cases hj : j = k
      · exact absurd (hj ▸ hp) (h n b)
      · simp [hj]
    | tentative _ => rfl
    | held _ _ => rfl
  cases hp : c.place with
  | tentative j =>
    dsimp only
    refine ⟨by rw [v0], fun i => ?_, fun k => ?_⟩
    · by_cases hi : i = id
      · subst hi; simp [v1, hp]
      · simp [hi, v2 i hi]
    · rw [vl, nop k (by simp [hp])]; simp
  | held r o =>
    dsimp only
    refine ⟨by rw [v0], fun i => ?_, fun k => ?_⟩
    · by_cases hi : i = id
      · subst hi; simp [v1, hp]
      · simp [hi, v2 i hi]
    · rw [vl, nop k (by simp [hp])]; simp
  | accepted j n b =>
    dsimp only
    have hin : c.inLot j = true := by simp [Chest.inLot, hp]
    have hno : ∀ w : State, w.chests = v.chests → ¬ w.allMarked j := by
      intro w hw h
      have hmem : (id, ({ c with mark := m, job := none } : Chest)) ∈ w.chests := by
        rw [hw]; exact Table.get?_mem v1
      exact hm (h _ hmem (by simpa [Chest.inLot] using hin))
    have he : (v.modLot j (fun l => { l with outstanding := l.outstanding - 1 })).evalComplete j =
        v.modLot j (fun l => { l with outstanding := l.outstanding - 1 }) := by
      cases hl : (v.modLot j (fun l => { l with outstanding := l.outstanding - 1 })).lot? j with
      | none => exact State.evalComplete_none hl
      | some l => exact (State.evalComplete_some hl).2 (fun h => hno _ rfl h.2.2)
    rw [he]
    refine ⟨?_, fun i => ?_, fun k => ?_⟩
    · rw [v0]; rfl
    · by_cases hi : i = id
      · subst hi; simp [v1, hp]
      · simp [hi, v2 i hi]
    · rw [State.modLot_lot?]
      by_cases hk : k = j
      · subst hk; simp [vl, hin]
      · rw [if_neg hk, vl, nop k (by rw [hp]; simp; exact fun h => absurd h.symm hk)]; simp

/-- A chest whose job is cancelled (R82, R127). -/
def Chest.uncued (c : Chest) : Chest := { c with mark := if c.mark = .queued then .unmarked else c.mark, job := none }

/-- Jobs of different chests, none of them MARKED, are cancelled one after the other. -/
theorem State.settleMarks_spec (q : List Job) (s : State) (hn : (q.map Job.chest).Nodup)
    (hc : ∀ j ∈ q, ∃ c, s.chest? j.chest = some c ∧ c.mark ≠ .marked) :
    let t := q.foldl (fun t j => t.settleMark j.chest (t.chestD j.chest).mark.cancelled) s
    t = { s with chests := t.chests, lots := t.lots } ∧
    (∀ id, t.chest? id = if id ∈ q.map Job.chest then (s.chest? id).map Chest.uncued else s.chest? id) ∧
    ∀ k, t.lot? k = (s.lot? k).map (fun l => { l with
      outstanding := l.outstanding - (q.filter (fun j => s.chestIs j.chest (fun c => c.inLot k))).length }) := by
  induction q generalizing s with
  | nil => exact ⟨rfl, by simp, fun k => by cases h : s.lot? k <;> simp [h]⟩
  | cons j q ih =>
    obtain ⟨hn1, hn2⟩ := List.nodup_cons.mp hn
    obtain ⟨c, hc1, hc2⟩ := hc j (by simp)
    have hm : c.mark.cancelled ≠ .marked := by
      unfold MarkStatus.cancelled; split
      · simp
      · exact hc2
    obtain ⟨a0, a1, a2⟩ := State.settleMark_spec hc1 hm
    have hD : (s.chestD j.chest).mark = c.mark := by simp [State.chestD, hc1]
    dsimp only
    rw [List.foldl_cons, hD]
    generalize s.settleMark j.chest c.mark.cancelled = u at *
    have hne : ∀ i ∈ q, i.chest ≠ j.chest := fun i hi e => hn1 (List.mem_map.mpr ⟨i, hi, e⟩)
    obtain ⟨b0, b1, b2⟩ := ih u hn2 (by
      intro i hi
      rw [a1, if_neg (hne i hi)]
      exact hc i (List.mem_cons_of_mem _ hi))
    generalize q.foldl (fun t j => t.settleMark j.chest (t.chestD j.chest).mark.cancelled) u = t at *
    refine ⟨?_, ?_, ?_⟩
    · rw [b0, a0]
    · intro id
      rw [b1, a1]
      by_cases hid : id = j.chest
      · subst hid
        simp [hn1, hc1, Chest.uncued, MarkStatus.cancelled]
      · simp [hid]
    · intro k
      rw [b2, a2]
      have hf : q.filter (fun i => u.chestIs i.chest (fun c => c.inLot k)) =
          q.filter (fun i => s.chestIs i.chest (fun c => c.inLot k)) := by
        refine List.filter_congr (fun i hi => ?_)
        simp [State.chestIs, a1, hne i hi]
      have hj : s.chestIs j.chest (fun c => c.inLot k) = c.inLot k := by simp [State.chestIs, hc1]
      rw [hf, List.filter_cons, hj]
      cases hl : s.lot? k with
      | none => rfl
      | some l =>
        by_cases hi : c.inLot k = true
        · simp only [hi, if_true, Option.map_some, List.length_cons]
          congr 2; omega
        · simp [hi]

/-- The queue notices change notices alone, and those two kinds alone (R115). -/
theorem State.queueNotices_eq (s : State) (a b c : Nat) :
    s.queueNotices a b c = { s with notices := (s.queueNotices a b c).notices } := by
  unfold State.queueNotices; dsimp only; split <;> split <;> rfl

/-- Two kinds raised, each when its condition holds. -/
theorem State.twoNotices (s : State) (a : Nat) (k : NoticeKind) (p q : Prop) [Decidable p] [Decidable q] :
    (if q then (if p then s.raise .queueEmpty (some a) else s).raise .queueLow (some a)
      else if p then s.raise .queueEmpty (some a) else s).notice k =
      if (k = .queueEmpty ∧ p) ∨ (k = .queueLow ∧ q) then (s.notice k).raised (some a) else s.notice k := by
  by_cases hp : p <;> by_cases hq : q <;>
    simp only [hp, hq, if_true, if_false, and_true, and_false, or_false, false_or]
  · by_cases k1 : k = .queueEmpty
    · subst k1; simp [State.raise_notice]
    · by_cases k2 : k = .queueLow <;> simp [State.raise_notice, k1, k2]
  · by_cases k1 : k = .queueEmpty <;> simp [State.raise_notice, k1]
  · by_cases k2 : k = .queueLow <;> simp [State.raise_notice, k2]

theorem State.queueNotices_notice (s : State) (a b c : Nat) (k : NoticeKind) :
    (s.queueNotices a b c).notice k =
      if (k = .queueEmpty ∧ 1 ≤ b ∧ c = 0) ∨ (k = .queueLow ∧ 4 ≤ b ∧ c ≤ 3) then (s.notice k).raised (some a)
      else s.notice k := s.twoNotices a k (1 ≤ b ∧ c = 0) (4 ≤ b ∧ c ≤ 3)

/-- What the cancellation of jobs of one queue leaves. -/
theorem State.cancelJobs_spec (s : State) (a : Nat) (out : Job → Bool)
    (hn : (((s.head a).queue.filter out).map Job.chest).Nodup)
    (hc : ∀ j ∈ (s.head a).queue.filter out, ∃ c, s.chest? j.chest = some c ∧ c.mark ≠ .marked) :
    let h := s.head a
    let q := h.queue.filter out
    let kept := h.queue.filter (fun j => !out j)
    let t := s.cancelJobs a out
    t = { s with heads := t.heads, chests := t.chests, lots := t.lots, notices := t.notices } ∧
    (∀ b, t.head b = if b = a then
      { h with queue := kept, state := if h.state = .ready ∧ kept = [] then .idle else h.state } else s.head b) ∧
    (∀ id, t.chest? id = if id ∈ q.map Job.chest then (s.chest? id).map Chest.uncued else s.chest? id) ∧
    (∀ k, t.lot? k = (s.lot? k).map (fun l => { l with
      outstanding := l.outstanding - (q.filter (fun j => s.chestIs j.chest (fun c => c.inLot k))).length })) ∧
    ∀ k, t.notice k =
      if (k = .queueEmpty ∧ 1 ≤ h.queue.length ∧ kept.length = 0) ∨ (k = .queueLow ∧ 4 ≤ h.queue.length ∧ kept.length ≤ 3)
      then (s.notice k).raised (some a) else s.notice k := by
  dsimp only
  unfold State.cancelJobs
  dsimp only
  generalize hu : s.setHead a { s.head a with
    queue := (s.head a).queue.filter (fun j => !out j)
    state := if (s.head a).state = .ready ∧ (s.head a).queue.filter (fun j => !out j) = [] then .idle
      else (s.head a).state } = u
  have u0 : u = { s with heads := u.heads } := by rw [← hu]; rfl
  have u1 : ∀ b, u.head b = if b = a then { s.head a with
      queue := (s.head a).queue.filter (fun j => !out j)
      state := if (s.head a).state = .ready ∧ (s.head a).queue.filter (fun j => !out j) = [] then .idle
        else (s.head a).state } else s.head b := by intro b; rw [← hu, State.setHead_head]
  have uc : ∀ i, u.chest? i = s.chest? i := by intro i; rw [u0]; rfl
  have ul : ∀ i, u.lot? i = s.lot? i := by intro i; rw [u0]; rfl
  have un : ∀ i, u.notice i = s.notice i := by intro i; rw [u0]; rfl
  have ui : ∀ i p, u.chestIs i p = s.chestIs i p := by intro i p; simp [State.chestIs, uc]
  obtain ⟨b0, b1, b2⟩ := State.settleMarks_spec ((s.head a).queue.filter out) u hn (by simpa only [uc] using hc)
  generalize ((s.head a).queue.filter out).foldl
    (fun t j => t.settleMark j.chest (t.chestD j.chest).mark.cancelled) u = v at *
  have vn : ∀ i, v.notice i = s.notice i := by intro i; rw [b0]; exact un i
  have vh : ∀ i, v.head i = u.head i := by intro i; rw [b0]; rfl
  have e := v.queueNotices_eq a (s.head a).queue.length ((s.head a).queue.filter (fun j => !out j)).length
  refine ⟨?_, ?_, ?_, ?_, ?_⟩
  · rw [e, b0, u0]
  · intro b; rw [e]; exact (vh b).trans (u1 b)
  · intro id; rw [e]; exact (b1 id).trans (by rw [uc])
  · intro k; rw [e]; refine (b2 k).trans ?_; simp only [ul, ui]
  · intro k; rw [State.queueNotices_notice, vn]

/-! ## The last source of a kind raised for several records -/

/-- Choosing a last source changes nothing but the source of one kind. -/
theorem State.lastSource_spec (s : State) (k : NoticeKind) (u : List Nat) :
    s.lastSource k u = { s with notices := (s.lastSource k u).notices } ∧
    (∀ j, j ≠ k → (s.lastSource k u).notice j = s.notice j) ∧
    (s.lastSource k u).notice k = { s.notice k with source := ((s.lastSource k u).notice k).source } := by
  unfold State.lastSource
  split
  · exact ⟨rfl, fun _ _ => rfl, rfl⟩
  · exact ⟨rfl, fun j hj => by rw [State.setNotice_notice, if_neg hj], by rw [State.setNotice_notice, if_pos rfl]⟩

/-- Of one record, that record is the last. -/
theorem lastTaken_one (n : Nat) : lastTaken [n] = some n := by simp [lastTaken, Nat.mod_one]

/-! ## The counts of a link cycle (R145, R147, R149, R150) -/

/-- What the judgement of a slot counts, the end of a window, an inhibit or a refusal among it. -/
theorem Station.countCycle_eq_afterCycle (v : Station) : v.countCycle = v.afterCycle := by
  unfold Station.countCycle Station.afterCycle
  cases v.join with
  | announcing w => by_cases h : w < 249 <;> simp [Station.windowOver, Config.windowCycles, h]
  | lost i => by_cases h : i < 499 <;> simp [Station.inhibitOver, Config.inhibitCycles, h]
  | refused => by_cases h : v.silence < 500 <;> simp [Station.refusalOver, Config.silenceTop, h]
  | absent => rfl
  | active => rfl

/-- What a silent slot does to the station's entry. -/
theorem Station.silent_eq_afterSilence (v : Station) : v.silent = v.afterSilence := Station.countCycle_eq_afterCycle _

/-- With the slot judged, no word of the station is to come in this cycle (R144, R150). -/
theorem inboundWord_closed {s : State} {a : Nat} (h : (s.station a).slotOpen = false) (w : Option LinkWord) :
    inboundWord a w s = s := by simp [inboundWord, atStation, h]

/-- With the slot open, the word or the silence in it is judged (R145). -/
theorem inboundWord_open {s : State} {a : Nat} (hp : s.part ≠ .retain) (h1 : 1 ≤ a) (h2 : a ≤ 14)
    (h : (s.station a).slotOpen = true) (w : Option LinkWord) : inboundWord a w s = s.judgeSlot a w :=
  atStation_enabled hp h1 h2 h

end Sys2Proof.Machine
end

