-- ==== Sys2Proof/Tests/Slice0.lean ====
section
/-! SUPPORT. Small tests of single steps, with figures from the manual's worked sequences and tables, and a witness for
every statement that has hypotheses: a concrete state and operands that meet them together. -/

namespace Sys2Proof.Tests

open Sys2Proof Sys2Proof.Machine

set_option maxRecDepth 20000

/-! ## Helpers -/

/-- The state with a latched frame of the code and the parameter bytes given. -/
abbrev send (s : State) (code : Byte) (ps : List Byte) : State := { s with buffer := .preparing (commandFrame code ps) }

/-- The next state of a command; the state after reset where there is none. -/
def after (i : Instr) (s : State) : State :=
  match exec i s with
  | .next t => t
  | _ => State.reset

/-- The response held. -/
def reply (s : State) : List Byte :=
  match s.buffer with
  | .ready r => r
  | _ => []

/-- A frame that is sent is latched with what its bytes read as. -/
theorem latches_send {α : Type} {s : State} {code : Byte} {ps : List Byte} {read : List Byte → Option α} {p : α}
    (h : s.part ≠ .retain) (hl : ps.length ≤ 100) (hr : read ps = some p) : (send s code ps).latches code read p :=
  ⟨h, ps, hl, rfl, hr⟩

def scale : Station := { Station.cold with kind := .scale, join := .active, abilities := some (.scale 20 60000) }
def stencil : Station := { Station.cold with kind := .stencil, join := .active, abilities := some (.stencil 600 1000) }
def bin : Station := { Station.cold with kind := .bin, join := .active, abilities := some (.bin 500000) }
def verified : Verification := { Verification.cold with state := .at (.verified 28800000), abilities := some (20, 60000) }
def classA : TareClass := { nominal := 5300, window := some (5000, 5600), spread := 100 }
def part1 : Component :=
  { bin := 11, source := [78, 49, 52], minShare := 400, maxShare := 550, charged := 0, count := 0, claim := .none }
def bulkA : Bulk :=
  { Bulk.blank with
    state := .mixed, number := 612, grade := [66, 79, 80], planned := 1200000, allowance := 5
    components := [{ part1 with charged := 1204000, maxShare := 1000, count := 1 }], charged := 1204000, lotRefs := 1 }
def lotA : Lot :=
  { Lot.blank with
    state := .packing, invoice := 4417, garden := [71], grade := [66, 79, 80], season := 24, bulk := 2, tareClass := 1
    declNet := 40000, step := 100, margin := 400, planned := 4, sampleLimit := 1000, mappedLanes := 1 }
def laneA : Lane := { Lane.blank with target := .lot 3 7, scale := 4, tareClass := 1 }
def chestA : Chest :=
  { Chest.blank with
    place := .accepted 3 1 2, lane := 2, scale := 4, gross := 45360, tare := 5280, division := 20, net := 40080
    recNet := some 40000, mark := .marked, markHead := some 7 }

/-- Class 1, the MIXED bulk 2, the PACKING lot 3, lane 2 on scale 4 and head 7, and bin 11. -/
def shed : State :=
  (((((((State.reset.setClass 1 (some classA)).setBulk 2 (some bulkA)).setLot 3 (some lotA)).setLane 2
    (some laneA)).setStation 4 scale).setStation 7 stencil).setStation 11 bin).setVerification 4 verified

/-- The shed with a CHARGING bulk in slot 5 instead of its MIXED one, with the first component of section 3.8. -/
def charging : State :=
  (shed.setBulk 2 none).setBulk 5 (some { bulkA with state := .charging, components := [part1], charged := 0, lotRefs := 0 })

/-- The shed with one accepted and MARKED chest, 612, in lot 3. -/
def packed : State :=
  (shed.setChest 612 (some chestA)).setLot 3 (some { lotA with
    accepted := 1, grossTotal := 45360, tareTotal := 5280, netTotal := 40000, minTare := some 5280, maxTare := some 5280 })

/-- A stable reading. -/
def stableAt (g : Nat) : Reading := { grams := g, stable := true, overload := false, underload := false }

/-- The state with a call in the slot of a station. -/
abbrev calls (s : State) (a : Nat) (c : Call) : State := s.modStation a (fun v => { v with slot := some c })

/-! ## Well-formed commands: an ill-formed term for each check -/

theorem test_wellFormed_emptyWindow : (Instr.commandWindowEnd []).wellFormed = false := by decide
theorem test_wellFormed_readCode : (Instr.commandWindowEnd [0x00, 0x10]).wellFormed = false := by decide
theorem test_wellFormed_address : ∀ i ∈ [Instr.inboundWord 0 none, .announceWindowExpiry 15, .stationLost 0,
    .rejoinInhibitExpiry 15, .refusalExpiry 0, .callGross 15, .callTare 0, .callTest 15, .callCharge 0, .callDone 15,
    .replyDone 0, .replyFault 15, .markTimeout 0, .intervalExpiry 15, .periodExpiry 0, .graceExpiry 15],
    i.wellFormed = false := by decide
theorem test_wellFormed_good : ∀ i ∈ [Instr.commandWindowEnd [0x7E, 0], .inboundWord 14 none, .callGross 1, .purge],
    i.wellFormed = true := by decide

/-- The table gives no bits to any row, so no word spells a command. -/
theorem test_noTableWord : decodeTableWord 16 0xFFFF = none := by decide

/-! ## Words and frames written out from their layouts (sections 11.2 and 11.3) -/

/-- CALL_GROSS of station 4, stable, 45 387 g: address 0100, kind 0010, payload bit 22 and 1 0110 0001 0100 1011. -/
theorem test_inbound_gross : inboundOf 0b01000010100000010110001010010110#32 = .call (.gross (stableAt 45387)) ∧
    wordAddress 0b01000010100000010110001010010110#32 = 4 := by decide

/-- ANNOUNCE page C of station 8, 800 ms: address 1000, kind 0001, page code 10. -/
theorem test_inbound_page : inboundOf 0b10000001100000000000011001000001#32 = .announce (.c 800) := by decide

/-- REPLY FAULT INK of station 7. -/
theorem test_inbound_fault : inboundOf 0b01110111100000000000000000000010#32 = .call (.replyFault .ink) := by decide

/-- The parity bit makes the count of ones in all 32 bits odd. -/
theorem test_parity : oddParity 0x10000000#32 = true ∧ oddParity 0x10000001#32 = false := by decide

/-- ANSWER ACCEPTED (11) with serial 31 to station 4: address 0100, kind 0001, code 0001011, value 31. -/
theorem test_outbound_answer : answerWord 4 (.answer .accepted 31) = 0b01000001000101100000000000111111#32 := by decide

/-- The codes of the characters N, 1 and 4 in mark word 5: 13, 27, 30. -/
theorem test_chars : charsWord [78, 49, 52] 0 = 13 * 4096 + 27 * 64 + 30 := by decide

/-- Invoice number 999 999 in mark words 0 and 7: bit 19 and bits 18 to 0. -/
theorem test_invoiceBits : let f : MarkFields := ⟨.first, 31, [], [], 999999, 0, 0, 0⟩
    f.content 0 = 31 * 1024 + 1 ∧ f.content 7 = 475711 := by decide

/-! ## Host commands, each frame written out byte by byte -/

theorem test_setStation : ((after .setStation (send shed 0x10 [6, 2, 0x03, 0xE8])).station 6).kind = .stencil ∧
    ((after .setStation (send shed 0x10 [6, 2, 0x03, 0xE8])).station 6).interval = 1000 := by decide

/-- Section 8.8: SET_STATION for a refused station ends the refusal; the answer is OK, ABSENT. -/
theorem test_setStation_refused : reply (after .setStation (send (shed.setStation 6 { Station.cold with
    kind := .scale, join := .refused, silence := 40 }) 0x10 [6, 2, 0, 0])) = [0x10, 0, 1, 0] := by decide

theorem test_readStation : (reply (after .readStation (send shed 0x11 [4]))).take 7 = [0x11, 0, 78, 1, 0, 0, 2] := by decide

theorem test_setTareClass : (after .setTareClass (send shed 0x18 [4, 0x14, 0xB4, 0, 100, 1, 0x13, 0x88, 0x15, 0xE0])).class? 4 =
    some { nominal := 5300, window := some (5000, 5600), spread := 100 } := by decide

/-- R2 check 3: lot 3 names class 1. -/
theorem test_setTareClass_locked : reply (after .setTareClass (send shed 0x18 [1, 0x14, 0xB4, 0, 100, 0])) = [0x18, 9, 0] := by
  decide

theorem test_readTareClass : reply (after .readTareClass (send shed 0x19 [1])) =
    [0x19, 0, 13, 1, 1, 0x14, 0xB4, 1, 0x13, 0x88, 0x15, 0xE0, 1, 0, 100, 1] := by decide

/-- P = 1 200 000 g is 00 12 4F 80. -/
theorem test_openBulk : ((after .openBulk (send shed 0x20 [5, 0x02, 0x65, 3, 66, 79, 80, 0, 0x12, 0x4F, 0x80, 0, 5, 1, 11, 3, 78, 49,
    52, 0, 0, 0x03, 0xE8])).bulk? 5).map Bulk.planned = some 1200000 := by decide

/-- R50 check 4: a maximum share of 999 per mille cannot make up the bulk. -/
theorem test_openBulk_shares : reply (after .openBulk (send shed 0x20 [5, 0x02, 0x65, 3, 66, 79, 80, 0, 0x12, 0x4F, 0x80, 0, 5, 1, 11,
    3, 78, 49, 52, 0, 0, 0x03, 0xE7])) = [0x20, 5, 0] := by decide

/-- Bulk 5 of section 3.8 after its four charges, its bins numbered 11 to 13 here. -/
def charged : State := charging.modBulk 5 (fun b => { b with
  charged := 1201300
  components := [{ part1 with charged := 653400 }, { part1 with bin := 12, minShare := 300, maxShare := 450, charged := 497000 },
    { part1 with bin := 13, minShare := 100, maxShare := 250, charged := 50900 }] })

/-- Section 3.8: OFF_RECIPE names component 3 as below its minimum with 50 900 g. -/
theorem test_mixBulk_offRecipe : reply (after .mixBulk (send charged 0x21 [5, 0])) = [0x21, 10, 7, 1, 3, 0, 0, 0xC6, 0xD4, 0] := by decide

/-- Section 3.8: with force the bulk is MIXED with OFF_RECIPE set, and its limit is 1 207 306 g. -/
theorem test_mixBulk_force : ((after .mixBulk (send charged 0x21 [5, 1])).bulk? 5).map (fun b => (b.state, b.offRecipe, b.limit)) =
    some (.mixed, true, 1207306) := by decide

/-- Bulk 5 of section 3.8 with component 3 uncertain at 49 600 g and K at 1 150 400 g. -/
def unsettled : State := charged.modBulk 5 (fun b => { b with
  charged := 1150400
  components := b.components.set 2 { part1 with bin := 13, minShare := 100, maxShare := 250, claim := .uncertain 49600 } })

/-- Section 3.8: a settlement of 50 900 g gives K 1 201 300 g and the overshoot. -/
theorem test_settleCharge : ((after .settleCharge (send unsettled 0x22 [5, 3, 0, 0, 0xC6, 0xD4])).bulk? 5).map
    (fun b => (b.charged, b.overshoot)) = some (1201300, true) := by decide

theorem test_spendBulk_drawn : reply (after .spendBulk (send shed 0x23 [2])) = [0x23, 4, 0] := by decide
theorem test_spendBulk : ((after .spendBulk (send (shed.setLot 3 none) 0x23 [2])).bulk? 2).map Bulk.state = some .spent := by decide
theorem test_freeBulk : (after .freeBulk (send charging 0x24 [5])).bulk? 5 = none := by decide
theorem test_freeBulk_referenced : reply (after .freeBulk (send shed 0x24 [2])) = [0x24, 4, 0] := by decide

/-- READ_BULK by the number 612: MIXED, 612, BOP. -/
theorem test_readBulk : ((reply (after .readBulk (send shed 0x25 [1, 0x02, 0x64]))).drop 3).take 10 =
    [2, 0x02, 0x64, 3, 66, 79, 80, 0, 0, 0] := by decide

/-- Section 1.3: twenty lots PACKING with a planned count of 96 each. -/
def budget : State := { shed with lots := (List.range 20).map (fun k => (k, { lotA with planned := 96, invoice := k + 1 })) }

/-- OPEN_LOT of slot 47, invoice 4 418, D 40 000 g, r 100 g, U 400 g and a planned count. -/
def openLotFrame (planned : Byte) : List Byte :=
  [47, 0, 0, 0x11, 0x42, 1, 71, 3, 66, 79, 80, 24, 2, 1, 0, 0, 0x9C, 0x40, 0, 100, 0x01, 0x90, planned, 0x03, 0xE8, 1]

/-- Section 1.3: 70 chests are refused with NO_ROOM and 64 are taken, and the sum becomes 1 984. -/
theorem test_openLot_budget : reply (after .openLot (send budget 0x30 (openLotFrame 70))) = [0x30, 6, 0] ∧
    (after .openLot (send budget 0x30 (openLotFrame 64))).commitments = 1984 := by decide

theorem test_openLot : ((after .openLot (send shed 0x30 (openLotFrame 4))).lot? 47).map
    (fun l => (l.invoice, l.declNet, l.step, l.margin, l.overmark)) = some (4418, 40000, 100, 400, true) := by decide

/-- R13 and R12: a close with every accepted chest MARKED completes the lot and unmaps its lane. -/
theorem test_closeLot : ((after .closeLot (send packed 0x31 [3])).lot? 3).map Lot.state = some .complete ∧
    (after .closeLot (send packed 0x31 [3])).lane? 2 = none := by decide

/-- The lot of the worked declaration of section 1.10 when it is declared. -/
def completed : State := (shed.setLane 2 none).setLot 3 (some { lotA with
  state := .complete, accepted := 4, overmark := true, cause := some .filled, grossTotal := 181940, tareTotal := 21320
  netTotal := 160400, minTare := some 5280, maxTare := some 5400, sampleTotal := 500, sampledCount := 1
  reweighedCount := 1, mappedLanes := 0 })

/-- The figures of the worked declaration of section 1.10. -/
theorem test_declareLot : ((after .declareLot (send completed 0x32 [3])).lot? 3).bind Lot.declaration = some
    { count := 4, declaredNet := 40000, invoiceNet := 159500, grossTotal := 181940, tareTotal := 21320, averageTare := 5330
      excess := 400, giveaway := 2, tareSpread := 120, tareMixed := true, offRecipe := false, reweighedCount := 1
      sampledCount := 1, sampleTotal := 500 } := by decide

theorem test_retireLot : (after .retireLot (send ((packed.modLot 3 (fun l => { l with state := .declared })).setLane 2 none) 0x33
    [3])).chest? 612 = none := by decide

/-- Lot 3 COMPLETE with the overmark option ON and one chest. -/
def finished : State := (packed.setLane 2 none).modLot 3 (fun l =>
  { l with state := .complete, overmark := true, mappedLanes := 0 })

/-- Section 1.10: a sample of 500 g; S rises to 500 g, one chest is sampled and one mark is outstanding. -/
theorem test_drawSample : ((after .drawSample (send finished 0x34 [3, 1, 0x01, 0xF4, 7])).lot? 3).map
    (fun l => (l.sampleTotal, l.sampledCount, l.outstanding)) = some (500, 1, 1) := by decide

theorem test_readLot : (reply (after .readLot (send shed 0x35 [0, 3]))).take 9 = [0x35, 0, 69, 2, 0, 0, 0, 0x11, 0x41] := by decide
theorem test_readDeclaration_early : reply (after .readDeclaration (send shed 0x36 [3])) = [0x36, 4, 0] := by decide
theorem test_readDeclaration : ((reply (after .readDeclaration (send (after .declareLot (send completed 0x32 [3])) 0x36
    [3]))).drop 51).take 4 = [0, 2, 0, 120] := by decide

/-- The shed with a second scale, at 6. -/
def twoScales : State := shed.setStation 6 scale

/-- R73: an UNVERIFIED scale gives a RUNNING lane; the answer carries the state and no reason. -/
theorem test_mapLane : reply (after .mapLane (send twoScales 0x40 [1, 3, 6, 1, 7, 0, 0, 0])) = [0x40, 0, 3, 1, 0, 0] ∧
    ((after .mapLane (send twoScales 0x40 [1, 3, 6, 1, 7, 0, 0, 0])).lot? 3).map Lot.mappedLanes = some 2 := by decide

/-- R72 check 7: lane 2 names scale 4. -/
theorem test_mapLane_duplicate : reply (after .mapLane (send shed 0x40 [1, 3, 4, 1, 7, 0, 0, 0])) = [0x40, 7, 0] := by decide

theorem test_unmapLane : ((after .unmapLane (send shed 0x41 [2])).lot? 3).map Lot.state = some .opened := by decide

/-- Section 4.7: HOLD_LANE on a lane with a tentative chest leaves it HOLD_PENDING with reason HOST. -/
theorem test_holdLane_pending : reply (after .holdLane (send (shed.setLane 2 (some { laneA with tentative := some 201 })) 0x42 [2, 0])) =
    [0x42, 0, 2, 2, 0] := by decide

/-- Section 4.7: the force hold of a lane with one queued FIRST job reports no tentative chest, one job, FORCED. -/
theorem test_holdLaneForce : reply (after .holdLaneForce (send ((packed.modChest 612 (fun c => { c with mark := .queued, job := some .first })).setHead 7
    { Head.cold with state := .paused .host, queue := [⟨612, .first⟩] }) 0x42 [2, 1])) = [0x42, 0, 8, 0, 0, 0, 0, 0, 0, 1, 1] := by decide

theorem test_releaseLane_one : ((after .releaseLane (send (shed.setLane 2 (some { laneA with state := .held .host })) 0x43 [2, 1, 2])).lane? 2).map
    (fun l => (l.state, l.oneShot)) = some (.running, true) := by decide

theorem test_readLane : reply (after .readLane (send shed 0x44 [2])) =
    [0x44, 0, 23, 1, 3, 4, 1, 7, 0, 1, 0, 0, 0, 0, 0, 0, 0, 0, 0, 0, 0, 1, 0, 0, 0x11, 0x41] := by decide

theorem test_readChest : ((reply (after .readChest (send packed 0x50 [0, 0x02, 0x64]))).drop 3).take 10 =
    [2, 0x01, 0x4B, 0x02, 0x64, 3, 1, 0, 2, 4] := by decide

/-- Section 2.11: lot 7's place taken by lot 3 with a = 30 of 40, W 964 700 g, K 1 000 000 g; the chests 613, 655 and 640 on
scale 6, which now reads in steps of 50 g, and 612 and 640 on scale 4. -/
def held : State :=
  let c : Chest := { chestA with place := .held .unassigned none, lane := 5, scale := 6, tare := 5300, recNet := none, mark := .none, markHead := none }
  ((((((shed.setStation 6 { scale with abilities := some (.scale 50 60000) }).setBulk 2
    (some { bulkA with charged := 1000000, drawn := 964700 })).setLot 3 (some { lotA with accepted := 30, planned := 40 })).setChest 613
    (some { c with gross := 45340, net := 40040 })).setChest 655 (some { c with gross := 45520, net := 40220 })).setChest 640
    (some { c with scale := 4, gross := 45700, net := 40400 })).setPool [613, 640, 655]

/-- Section 2.11: 613 fails SHORT on d = 50, and 640 would fail BALANCE after 655. -/
theorem test_assignHeld_short : reply (after .assignHeld (send held 0x51 [0x02, 0x65, 3, 7])) = [0x51, 11, 1, 1] := by decide

/-- Section 2.11: 655 takes serial 31, and W becomes 1 004 900 g. -/
theorem test_assignHeld : reply (after .assignHeld (send held 0x51 [0x02, 0x8F, 3, 7])) = [0x51, 0, 1, 31] ∧
    ((after .assignHeld (send held 0x51 [0x02, 0x8F, 3, 7])).bulk? 2).map Bulk.drawn = some 1004900 := by decide

/-- Section 2.11: a returned last chest joins the pool's end and the lot's count falls. -/
theorem test_returnChest : reply (after .returnChest (send packed 0x52 [0x02, 0x64])) = [0x52, 0, 1, 1] ∧
    ((after .returnChest (send packed 0x52 [0x02, 0x64])).lot? 3).map (fun l => (l.accepted, l.minTare)) = some (0, none) := by decide

theorem test_voidChest : (after .voidChest (send packed 0x53 [0x02, 0x64])).chest? 612 = none := by decide
theorem test_voidChest_held : (after .voidChest (send held 0x53 [0x02, 0x65])).pool = [640, 655] := by decide

theorem test_pauseHead : reply (after .pauseHead (send (shed.setHead 7 { Head.cold with state := .sending }) 0x60 [7])) = [0x60, 0, 1, 4] := by decide

/-- Section 6.7: RESUME_HEAD with one makes a PAUSED head with jobs READY with the one-mark flag set. -/
theorem test_resumeHead : ((after .resumeHead (send (shed.setHead 7 { Head.cold with state := .paused .host, queue := [⟨302, .first⟩] }) 0x61
    [7, 1])).head 7) = { Head.cold with state := .ready, oneMark := true, queue := [⟨302, .first⟩] } := by decide

/-- Section 6.7: the flush of two jobs raises QUEUE_EMPTY and not QUEUE_LOW. -/
theorem test_flushHead : let t := after .flushHead (send (shed.setHead 7 { Head.cold with state := .paused (.fault .other), queue := [⟨304, .first⟩, ⟨303, .reprint⟩] })
      0x62 [7])
    (t.notice .queueEmpty).source = some 7 ∧ (t.notice .queueLow).pending = false ∧ reply t = [0x62, 0, 1, 2] := by decide

theorem test_reprint : reply (after .reprint (send packed 0x63 [0x02, 0x64, 7])) = [0x63, 0, 1, 1] ∧
    ((after .reprint (send packed 0x63 [0x02, 0x64, 7])).chest? 612).map (fun c => (c.mark, c.reprints)) = some (.queued, 1) := by decide

theorem test_readHead : reply (after .readHead (send shed 0x64 [7])) =
    [0x64, 0, 29, 0, 0, 0, 0, 0, 0, 0, 0, 0, 0, 0, 0, 0, 0, 0, 0, 0, 0, 1, 0, 0, 0x03, 0xE8, 1, 0, 0, 0x02, 0x58, 0] := by decide

/-- Section 7.5: a period timer of 300 min is clamped to 240 min, which is 14 400 000 ms. -/
theorem test_setVerify : ((after .setVerify (send (shed.setVerification 4 { verified with state := .at (.verified 18000000) }) 0x70
    [4, 0, 240, 30, 1, 0, 10])).verification 4).state = .at (.verified 14400000) := by decide +kernel

theorem test_verifyScale : ((after .verifyScale (send (shed.setLane 2 none) 0x71 [4, 0, 0, 0x4E, 0x20])).station 4).order = some (.test 20000) := by decide

theorem test_cancelVerify : ((after .cancelVerify (send (shed.setVerification 4 { verified with state := .testing .unverified 20000 true }) 0x72
    [4])).station 4).order = some .testEnd := by decide

theorem test_readNotices : (reply (after .readNotices (send shed 0x78 []))).drop 94 = [1, 0, 0, 1, 0] := by decide

/-- Section 9.6: CHEST_HELD (kind 4), pending, repeated, with source 5, is cleared. -/
theorem test_clearNotices : let s := (shed.raise .chestHeld (some 3)).raise .chestHeld (some 5)
    (s.notice .chestHeld).repeated = true ∧ ((after .clearNotices (send s 0x79 [0, 0, 0x10])).notice .chestHeld) =
      { pending := false, enable := false, repeated := false, source := some 5 } := by decide

theorem test_setNoticeEnables : (after .setNoticeEnables (send shed 0x7A [0x04, 0, 0])).noticeLine = true := by decide
theorem test_setNoticeEnables_bad : reply (after .setNoticeEnables (send shed 0x7A [0x08, 0, 0])) = [0x7A, 5, 0] := by decide

theorem test_readPart : reply (after .readPart (send packed 0x7E [])) =
    [0x7E, 0, 15, 0x0D, 0x5E, 0x24, 0x16, 1, 0, 0, 0, 0, 0, 4, 0, 0x07, 0xFF, 1] := by decide

theorem test_purge_refused : reply (after .purge (send shed 0x7F [])) = [0x7F, 4, 0] := by decide
theorem test_purge : (after .purge (send finished 0x7F [])).part = .purging ∧ reply (after .purge (send finished 0x7F [])) = [0x7F, 1, 0] := by decide

theorem test_unknownCommand : reply (after .unknownCommand (send shed 0x12 [1])) = [0x12, 3, 0] := by decide
theorem test_badFrame : reply (after .readLane { shed with buffer := .preparing [0x44, 2, 1] }) = [0x44, 12, 0] := by decide

/-! ## Windows, link, calls and timers -/

theorem test_commandWindowEnd : (after (.commandWindowEnd [0x44, 1, 2]) shed).buffer = .preparing [0x44, 1, 2] := by decide

/-- R163: a window to the frame's last byte makes the response READ; one byte less leaves it READY. -/
theorem test_readWindow : (after (.readWindow 3) { shed with buffer := .ready [0x24, 0, 0] }).buffer = .read [0x24, 0, 0] ∧
    (after (.readWindow 2) { shed with buffer := .ready [0x24, 0, 0] }).buffer = .ready [0x24, 0, 0] := by decide

/-- R144: the first cycle carries 0 and the next 1; ACTIVE station 7 is polled with its join state 2 (section 11.2). -/
theorem test_linkCycle : (after .linkCycle shed).cycle = some 0 ∧ (after .linkCycle { shed with cycle := some 65535 }).cycle = some 0 ∧
    (after .linkCycle shed).linkOut[7]? = some 0x70000005#32 := by decide

/-- A READY head on an ACTIVE station with its interval expired sends word 0 of its front job, and the chest is IN_FLIGHT. -/
def ready : State := (packed.modChest 612 (fun c => { c with mark := .queued, job := some .first })).setHead 7
  { Head.cold with state := .ready, queue := [⟨612, .first⟩] }

theorem test_linkCycle_dispatch : ((after .linkCycle ready).head 7).state = .sending ∧
    ((after .linkCycle ready).chest? 612).map Chest.mark = some .inFlight := by decide

/-- The slot of station `a` in this cycle is open: no word of it is judged yet. -/
abbrev unjudged (s : State) (a : Nat) : State := s.modStation a Station.openSlot

/-- R153: a gross call of an ACTIVE scale stands in its slot, answered PENDING; a second is answered BUSY. -/
theorem test_inboundWord_call : ((after (.inboundWord 4 (some 0b01000010100000010110001010010110#32)) (unjudged shed 4)).station 4).slot =
      some (.gross (stableAt 45387)) ∧
    ((after (.inboundWord 4 (some 0b01000010100000010110001010010110#32)) (unjudged (calls shed 4 (.gross (stableAt 1))) 4)).station 4).busyAnswers = 1 := by
  decide

/-- Section 8.8: station 8 with page B 600 ms and page C 800 ms is ACTIVE with a mark interval of 1 000 ms. -/
theorem test_inboundWord_join : ((after (.inboundWord 8 (some 0b10000001100000000000011001000001#32)) (shed.setStation 8 { Station.cold with
      kind := .stencil, interval := 1000, join := .announcing 2, slotOpen := true
      pages := some ⟨.stencil, some 600, none⟩ })).station 8).abilities =
    some (.stencil 600 1000) := by decide

/-- A station that is announcing, lost or refused, its slot of this cycle not judged yet. -/
def away (j : Join) (n : Nat) : Station := { bin with join := j, silence := n, slotOpen := true, pages := some ⟨.bin, some 1000, none⟩ }

/-- R147: the 250th cycle that ends without page C ends the window, and the 249th does not. -/
theorem test_announceWindowExpiry :
    ((after (.announceWindowExpiry 11) (shed.setStation 11 (away (.announcing 249) 0))).station 11).join = .absent ∧
    ((after (.announceWindowExpiry 11) (shed.setStation 11 (away (.announcing 248) 0))).station 11).join = .announcing 248 := by decide

/-- R147: page C of station 11, 0, in the 250th cycle still joins it. -/
theorem test_inboundWord_lastPage : ((after (.inboundWord 11 (some 0b10110001100000000000000000000000#32))
    (shed.setStation 11 (away (.announcing 249) 0))).station 11).join = .active := by decide

/-- Section 8.8: a head lost while printing: the chest UNCERTAIN, the head PAUSED, the lane held for HEAD_ABSENT. -/
def printing : State := (((packed.modChest 612 (fun c => { c with mark := .inFlight, job := some .first })).setHead 7
  { Head.cold with
    state := .printing, message := some ⟨⟨.first, 1, [71], [66], 4417, 40000, 45360, 24⟩, 10⟩, reply := some 1600
    queue := [⟨612, .first⟩] }).modLot 3 (fun l => { l with outstanding := 1 })).modStation 7 (fun v => { v with silence := 25 })

theorem test_stationLost : ((after (.stationLost 7) printing).head 7).state = .paused .lost ∧
    ((after (.stationLost 7) printing).lane? 2).map Lane.state = some (.held .headAbsent) := by decide

/-- R149 and R150: the 500th cycle ends the inhibit and the refusal. -/
theorem test_rejoinInhibitExpiry :
    ((after (.rejoinInhibitExpiry 11) (shed.setStation 11 (away (.lost 499) 500))).station 11).join = .absent := by decide

/-- R150: page A in the slot of that 500th cycle is not heard, and in the next cycle it begins an announcement. -/
theorem test_rejoin_nextCycle :
    let s := after (.rejoinInhibitExpiry 11) (shed.setStation 11 (away (.lost 499) 500))
    let page := Instr.inboundWord 11 (some (Inbound.word 11 (.announce (.a .bin))))
    ((after page s).station 11).join = .absent ∧ ((after page (after .linkCycle s)).station 11).join = .announcing 0 := by
  decide +kernel

theorem test_refusalExpiry :
    ((after (.refusalExpiry 11) (shed.setStation 11 (away .refused 499))).station 11).join = .absent := by decide

/-- The rows of the worked netting table of section 5.8: the net of each reading on d = 20 g with a tare of 5 300 g, and the test. -/
theorem test_netting : [45387, 45310, 45760, 45695, 45329, 45719, 45721, 5108].map
      (fun r => ((weigh 2 4 r 20 5300 .nominal).net, acceptanceTest lotA (weigh 2 4 r 20 5300 .nominal).net 20)) =
    [(40080, .pass 40000), (40000, .fail .short), (40460, .fail .over), (40380, .pass 40300), (40020, .pass 40000),
     (40400, .pass 40400), (40420, .fail .over), (-200, .fail .short)] := by decide

/-- Section 5.8: the reading of 45 387 g is accepted, with G 45 380 g and N_rec 40 000 g in the lot's totals. -/
theorem test_callGross : ((after (.callGross 4) (calls shed 4 (.gross (stableAt 45387)))).lot? 3).map
      (fun l => (l.accepted, l.grossTotal, l.netTotal, l.minTare)) = some (1, 45380, 40000, some 5300) := by decide

/-- Section 5.8: with W = 1 170 000 g the reading of 45 695 g is held for BALANCE, and the lane is HELD. -/
theorem test_callGross_balance : let t := after (.callGross 4) (calls (shed.modBulk 2 (fun b => { b with drawn := 1170000 })) 4 (.gross (stableAt 45695)))
    t.pool = [0] ∧ (t.lane? 2).map Lane.state = some (.held .balance) ∧ (t.bulk? 2).map Bulk.drawn = some 1170000 := by decide

/-- R76: a tare reading in the window becomes the pending tare; on its edge too. -/
theorem test_callTare : ((after (.callTare 4) (calls (shed.setLane 2 (some { laneA with tareMode := .individual })) 4 (.tare (stableAt 5600)))).lane? 2).bind
    Lane.pendingTare = some 5600 := by decide

/-- Section 7.5: R 20 015 against 20 000 g passes with a difference of 15 g; R 20 050 fails with 50 g. -/
theorem test_callTest : [20015, 20050].map (fun r =>
      let t := after (.callTest 4) (calls (shed.setVerification 4 { verified with state := .testing .unverified 20000 true, tolerance := 10 }) 4 (.test (stableAt r)))
      ((t.verification 4).state, (t.station 4).answers)) =
    [(.at (.verified 28800000), [.answer .testPass 15]), (.at .suspended, [.answer .testFail 50])] := by decide +kernel

/-- Section 3.8: bin 9's requests, here bin 11's: 500 000 g asked and granted, then 200 000 g asked and 156 600 g granted. -/
theorem test_callCharge : ((after (.callCharge 11) (calls charging 11 (.charge 500000))).station 11).answers = [.grant 500000] ∧
    ((after (.callCharge 11) (calls (charging.setBulk 5 (some { bulkA with state := .charging, charged := 503400, components := [{ part1 with charged := 503400 }] }))
      11 (.charge 200000))).station 11).answers = [.grant 156600] := by decide

/-- Section 3.8: 503 400 g against a grant of 500 000 g is within the tolerance; 50 900 g against 49 600 g overshoots. -/
theorem test_callDone : ((after (.callDone 11) (calls (charging.setBulk 5 (some { bulkA with state := .charging, charged := 0, components := [{ part1 with claim := .grant 500000 }] }))
      11 (.done 503400))).bulk? 5).map (fun b => (b.charged, b.overshoot)) = some (503400, false) ∧
    ((after (.callDone 11) (calls (charging.setBulk 5 (some { bulkA with state := .charging, charged := 0, components := [{ part1 with claim := .grant 49600 }] }))
      11 (.done 50900))).bulk? 5).map Bulk.overshoot = some true := by decide

/-- Section 6.7: DONE marks the chest and starts the interval; the late DONE of a paused head is answered NO_MARK. -/
theorem test_replyDone : ((after (.replyDone 7) (calls printing 7 .replyDone)).head 7).interval = some 1000 ∧
    ((after (.replyDone 7) (calls shed 7 .replyDone)).station 7).answers = [.answer .noMark 0] := by decide

/-- Section 6.7: FAULT INK pauses the head, and the chest is UNMARKED. -/
theorem test_replyFault : ((after (.replyFault 7) (calls printing 7 (.replyFault .ink))).head 7).state = .paused (.fault .ink) ∧
    ((after (.replyFault 7) (calls printing 7 (.replyFault .ink))).chest? 612).map Chest.mark = some .unmarked := by decide

/-- Section 6.7: the reply timer's expiry leaves the chest UNCERTAIN and the head PAUSED, FAULT OTHER. -/
theorem test_markTimeout : let s := printing.modHead 7 (fun h => { h with reply := some 0 })
    ((after (.markTimeout 7) s).head 7).state = .paused (.fault .other) ∧ ((after (.markTimeout 7) s).chest? 612).map Chest.mark = some .uncertain := by
  decide

theorem test_intervalExpiry : ((after (.intervalExpiry 7) (shed.setHead 7 { Head.cold with interval := some 0 })).head 7).interval = none := by decide

/-- Section 7.5: the period's expiry makes the record DUE with 30 min of grace. -/
theorem test_periodExpiry : ((after (.periodExpiry 4) (shed.setVerification 4 { verified with state := .at (.verified 0), grace := 30 })).verification 4).state =
    .at (.due (.running 1800000)) := by decide

/-- Section 7.5: the grace's expiry suspends the scale and holds its lane, and LANE_HELD has the lane as source. -/
theorem test_graceExpiry : let t := after (.graceExpiry 4) (shed.setVerification 4 { verified with state := .at (.due (.running 0)) })
    (t.lane? 2).map Lane.state = some (.held .scaleSuspended) ∧ (t.notice .laneHeld).source = some 2 := by decide

/-- R109 and R80: the wait of a lane ends with its scale's suspension, and the lane is HELD at once; so it does at an unmapping. -/
theorem test_graceExpiry_waiting : let s := (shed.setWait 4 .lot).setVerification 4 { verified with state := .at (.due (.running 0)) }
    ((after (.graceExpiry 4) s).lane? 2).map Lane.state = some (.held .scaleSuspended) ∧ (after (.graceExpiry 4) s).wait 4 = .none ∧
    (after .unmapLane (send s 0x41 [2])).wait 4 = .none := by decide

theorem test_purgeComplete : let t := after .purgeComplete { finished with part := .purging, purgeTimer := some 0 }
    t.part = .running ∧ t.lots = [] ∧ t.classes = shed.classes ∧ (t.notice .purgeDone).pending = true := by decide

/-- R179: a notice raised in a purge is not among those that READ_PART counts until the purge ends. -/
theorem test_readPart_purging : let s := after .purge (send finished 0x7F [])
    (reply (after .readPart (send (s.raise .stationLost (some 4)) 0x7E []))).drop 17 = [1] := by decide

/-! ## Supply and reset lines -/

theorem test_pwrgoodFall : (after .pwrgoodFall shed).part = .retain ∧ (after .pwrgoodFall shed).marker = some .running := by decide
theorem test_resetAssert : (after .resetAssert shed).part = .retain ∧ (after .resetAssert shed).pwrgood = true := by decide

/-- R182: a start with the marker holding PURGING finishes the purge. -/
theorem test_pwrgoodRise : let t := after .pwrgoodRise (after .pwrgoodFall { finished with part := .purging, purgeTimer := some 20 })
    t.purgeFinished = true ∧ t.lots = [] ∧ t.restartKind = .warm := by decide

/-- R87: a warm restart leaves the lane HELD with reason RESTART, and the cause is RESET. -/
theorem test_resetRelease : let t := after .resetRelease (after .resetAssert shed)
    (t.lane? 2).map Lane.state = some (.held .restart) ∧ t.restartCause = .reset ∧ t.lots = shed.lots := by decide

/-- R176: VBAK below its holding level in RETAIN makes the next start cold. -/
theorem test_vbak : (after .pwrgoodRise (after .vbakBelowHoldingLevel (after .pwrgoodFall shed))).lots = [] := by decide
theorem test_supplyFails : (after .pwrgoodRise (after .supplyFailsWithoutPwrgoodFall shed)).restartKind = .cold := by decide

/-! ## Witnesses: for each statement with hypotheses, states and operands that meet them, clause by clause -/

/-- Each frame of the list is latched with what its bytes read as. -/
theorem latches_each {α : Type} {s : State} {code : Byte} {read : List Byte → Option α} {l : List (List Byte × α)}
    (h : s.part ≠ .retain) (hl : ∀ e ∈ l, e.1.length ≤ 100 ∧ read e.1 = some e.2) :
    ∀ e ∈ l, (send s code e.1).latches code read e.2 :=
  fun e he => latches_send h (hl e he).1 (hl e he).2

/-- An empty frame is latched for a command without parameters. -/
theorem latches_none {s : State} {code : Byte} (h : s.part ≠ .retain) : (send s code []).latches code readNone () :=
  latches_send h (by decide) (by decide)

theorem witness_CommandWindowLatchesFrame : (0x44 : Byte) ≠ 0x00 ∧ { shed with part := .retain }.part = .retain ∧
    shed.part ≠ .retain ∧ (send shed 0x44 [2]).buffer = .preparing [0x44, 1, 2] ∧ shed.buffer = .empty := by decide

theorem witness_ReadWindowShiftsResponse : shed.part ≠ .retain ∧
    { shed with buffer := .ready [0x24, 0, 0] }.buffer = .ready [0x24, 0, 0] ∧ [0x24, 0, (0 : Byte)].length ≤ 3 ∧
    2 < [0x24, 0, (0 : Byte)].length ∧ { shed with buffer := .read [0x24, 0, 0] }.buffer = .read [0x24, 0, 0] ∧
    shed.buffer = .empty ∧ (send shed 0x44 [2]).buffer = .preparing [0x44, 1, 2] := by decide

theorem witness_BadFrameIsRefused : shed.part ≠ .retain ∧
    (∃ e ∈ hostCommands, e.2.1 = 0x44 ∧ ¬ ∃ ps : List Byte, ps.length ≤ 100 ∧ [2, 1] = byte ps.length :: ps ∧ e.2.2 ps = true) ∧
    (∀ e ∈ hostCommands, e.2.1 ≠ 0x12) ∧ (¬ ∃ ps : List Byte, ps.length ≤ 100 ∧ [] = byte ps.length :: ps) ∧
    ∃ ps : List Byte, ps.length ≤ 100 ∧ [1, 9] = byte ps.length :: ps := by
  refine ⟨by decide, ⟨hostCommands[21], List.getElem_mem _, rfl, ?_⟩, by decide, ?_, [9], by decide, by decide⟩
  · rintro ⟨ps, -, h, -⟩
    obtain ⟨h, rfl⟩ := List.cons.inj h
    revert h; decide
  · rintro ⟨ps, -, h⟩; cases h

theorem witness_PurgingAnswersBusy : { shed with part := .purging }.part = .purging ∧
    (∃ e ∈ hostCommands, e.1 = .readLane ∧ e.1 ≠ .readPart ∧ e.2.2 [2] = true ∧
      (send shed 0x44 [2]).buffer = .preparing (commandFrame e.2.1 [2])) ∧
    (∃ e ∈ hostCommands, e.1 = .holdLane ∧ e.2.2 [2, 0] = true ∧ ∀ n, readPair [2, 0] ≠ some (n, 1)) ∧
    readPair [2, 1] = some (2, 1) ∧ (send shed 0x42 [2, 1]).buffer = .preparing (commandFrame 0x42 [2, 1]) ∧
    ((calls { shed with part := .purging } 4 (.gross (stableAt 45387))).part = .purging) := by
  refine ⟨by decide, ⟨hostCommands[21], List.getElem_mem _, by decide⟩, ⟨hostCommands[19], List.getElem_mem _, rfl, by decide, ?_⟩,
    by decide, by decide, by decide⟩
  intro n h
  have : readPair [2, 0] = some (2, 0) := by decide
  rw [this] at h; cases h

theorem witness_RefusedCommandChangesNothing : .readLane ∈ Instr.holdLaneForce :: hostCommands.map (·.1) ∧
    (after .readLane (send shed 0x44 [9])).buffer = .ready (0x44 :: 3 :: [0]) ∧ (3 : Byte) ≠ 0 ∧ (3 : Byte) ≠ 1 := by decide

theorem witness_StartWithoutMarkerIsCold :
    let s := { shed with part := .retain, marker := none }
    s.part = .retain ∧ s.marker = none ∧ ({ s with pwrgood := false }.pwrgood = false ∧ s.resetAsserted = false) ∧
    (s.pwrgood = true ∧ { s with resetAsserted := true }.resetAsserted = true) := by decide

/-- The shed as a fall of PWRGOOD leaves it, with every kind of work in flight: a printing head, a lane with a tentative
chest, a grant, and one scale in each of VERIFIED, DUE and TESTING. -/
def dark : State :=
  ((((((printing.setBulk 5 (some { bulkA with components := [{ part1 with claim := .grant 7 }] })).setLane 1
    (some { laneA with scale := 6, tentative := some 613 })).setChest 613 (some { chestA with place := .tentative 3, mark := .none })).setVerification 6
    { verified with state := .at (.due .expired) }).setVerification 1
    { verified with state := .testing (.verified 5) 20000 true }).setHead 9 { Head.cold with interval := some 40 })

theorem witness_WarmRestartKeepsRecords :
    let s := after .pwrgoodFall dark
    (s.part = .retain ∧ s.marker = some .running ∧ s.pwrgood = false ∧ s.resetAsserted = false ∧
    (s.verification 4).state = .at (.verified 28800000) ∧ (s.verification 6).state = .at (.due .expired) ∧
    (s.verification 1).state = .testing (.verified 5) 20000 true ∧ s.lane? 1 = some { laneA with scale := 6, tentative := some 613 } ∧
    (s.head 7).message.isSome ∧ (s.head 9).message = none ∧ (s.head 7).queue.map Job.chest = [612] ∧
    laneNumbers.filterMap (fun n => (s.lane? n).bind Lane.tentative) = [613] ∧ 613 ∉ s.pool ∧
    (s.chest? 613).map Chest.place = some (.tentative 3)) ∧
    ((after .pwrgoodFall { finished with part := .purging }).marker = some .purging ∧
    (after .pwrgoodFall { finished with part := .purging }).pwrgood = false) ∧
    (let u := after .resetAssert shed
     u.part = .retain ∧ u.marker ≠ none ∧ u.pwrgood = true ∧ u.resetAsserted = true ∧
     (∃ t, exec .pwrgoodRise { u with pwrgood := false, resetAsserted := false } = .next t)) :=
  ⟨by decide, by decide, by decide, by decide, by decide, by decide, _, rfl⟩

theorem witness_RetentionIsEntered :
    let s := { shed with part := .retain }
    (shed.pwrgood = true ∧ shed.resetAsserted = false ∧ shed.part ≠ .retain ∧ shed.marker = none) ∧
    ({ shed with part := .purging }.part ≠ .retain) ∧ (s.part = .retain ∧ s.pwrgood = true ∧ s.resetAsserted = false) := by decide

theorem witness_RetentionIsQuiet :
    let s := { shed with part := .retain, pwrgood := false, resetAsserted := true }
    s.part = .retain ∧ s.pwrgood = false ∧ s.resetAsserted = true ∧ hostCommands ≠ [] := by
  refine ⟨rfl, rfl, rfl, ?_⟩; intro h; exact absurd (congrArg List.length h) (by decide)

theorem witness_PurgeEmptiesRecords :
    (send shed 0x7F []).latches 0x7F readNone () ∧ (send finished 0x7F []).latches 0x7F readNone () ∧
    (shed.part = .running ∧ ¬ ∀ e ∈ shed.lots, e.2.state = .complete ∨ e.2.state = .declared) ∧
    ((∀ e ∈ finished.lots, e.2.state = .complete ∨ e.2.state = .declared) ∧ ∀ e ∈ finished.bulks, e.2.state ≠ .charging) ∧
    { finished with part := .purging, purgeTimer := some 0 }.part = .purging ∧
    { finished with part := .purging, purgeTimer := some 0 }.purgeTimer = some 0 :=
  ⟨latches_none (by decide), latches_none (by decide), by decide, by decide, by decide, by decide⟩

/-- The top notice set, the first one beyond it, and the set of no kind. -/
theorem witness_NoticesAreRaisedReadAndCleared : shed.part = .running ∧ (send shed 0x78 []).latches 0x78 readNone () ∧
    (∀ e ∈ [([0x07, 0xFF, 0xFF], 524287), ([0x08, 0, 0], 524288), ([0, 0, 0], 0)], (send shed 0x79 e.1).latches 0x79 readNoticeSet e.2) ∧
    (∀ e ∈ [([0x07, 0xFF, 0xFF], 524287), ([0x08, 0, 0], 524288), ([0, 0, 0], 0)], (send shed 0x7A e.1).latches 0x7A readNoticeSet e.2) ∧
    524287 < 2 ^ 19 ∧ 2 ^ 19 ≤ 524288 :=
  ⟨by decide, latches_none (by decide), latches_each (by decide) (by decide), latches_each (by decide) (by decide), by decide, by decide⟩

theorem witness_ReadPartReports : (send { shed with part := .purging } 0x7E []).latches 0x7E readNone () := latches_none (by decide)

/-- Addresses 0, 1, 14 and 15, a kind of 4 and an interval of 10 001 ms; an ACTIVE station, one that a lane or a component
names, one whose queue holds a job, a REFUSED one, and one whose kind stays. -/
theorem witness_StationIsConfigured : shed.part = .running ∧
    (∀ e ∈ [([0, 1, 0, 0], (⟨0, 1, 0⟩ : SetStationParams)), ([15, 1, 0, 0], ⟨15, 1, 0⟩), ([1, 4, 0, 0], ⟨1, 4, 0⟩),
      ([14, 3, 0x27, 0x11], ⟨14, 3, 10001⟩), ([14, 3, 0x27, 0x10], ⟨14, 3, 10000⟩), ([1, 0, 0, 0], ⟨1, 0, 0⟩), ([4, 1, 0, 0], ⟨4, 1, 0⟩),
      ([9, 2, 0, 0], ⟨9, 2, 0⟩)], (send shed 0x10 e.1).latches 0x10 readSetStation e.2) ∧
    (shed.station 4).join = .active ∧ (shed.station 14).join ≠ .active ∧ (shed.head 14).queue = [] ∧ (shed.station 1).kind = pageKind 0 ∧
    (shed.station 14).kind ≠ pageKind 3 ∧ ((shed.setHead 9 { Head.cold with queue := [⟨612, .first⟩] }).head 9).queue ≠ [] ∧
    (∀ e ∈ shed.lanes, e.2.scale ≠ 14 ∧ e.2.target = .lot 3 7) ∧ (∀ e ∈ shed.bulks, ∀ c ∈ e.2.components, c.bin ≠ 14) ∧
    (∃ e ∈ (shed.setStation 4 { scale with join := .absent }).lanes, e.2.scale = 4) ∧
    ((shed.setStation 14 { Station.cold with join := .refused }).station 14).join = .refused :=
  ⟨by decide, latches_each (by decide) (by decide), by decide⟩

theorem witness_StationIsRead : shed.part = .running ∧
    ∀ e ∈ [([0], 0), ([1], 1), ([14], 14), ([15], 15)], (send shed 0x11 e.1).latches 0x11 readOne e.2 :=
  ⟨by decide, latches_each (by decide) (by decide)⟩

theorem witness_TareClassIsSet : shed.part = .running ∧
    (∀ e ∈ [([7, 0x4E, 0x20, 0x13, 0x88, 1, 0, 1, 0x4E, 0x20], (⟨7, 20000, 5000, some (some (1, 20000))⟩ : TareClassParams)),
      ([8, 0, 1, 0, 0, 0], ⟨8, 1, 0, some none⟩), ([0, 0, 0, 0, 0, 0], ⟨0, 0, 0, some none⟩), ([0, 0, 1, 0, 0, 2], ⟨0, 1, 0, none⟩),
      ([1, 0, 1, 0, 0, 0], ⟨1, 1, 0, some none⟩)], (send shed 0x18 e.1).latches 0x18 readSetTareClass e.2) ∧
    (∃ e ∈ shed.lots, e.2.tareClass = 1) ∧ (∀ e ∈ shed.lots, e.2.tareClass ≠ 7) ∧ (∀ e ∈ shed.lanes, e.2.target ≠ .hold) ∧
    (∀ e ∈ [([7], 7), ([8], 8)], (send shed 0x19 e.1).latches 0x19 readOne e.2) :=
  ⟨by decide, latches_each (by decide) (by decide), by decide, by decide, by decide, latches_each (by decide) (by decide)⟩

/-- A recipe of one component from bin 11 with a share of up to `top` per mille. -/
def recipe (slot number top : Nat) : OpenBulkParams :=
  { slot := slot, number := number, grade := [66], planned := 10000, allowance := 20, components := [⟨11, [78], 0, top⟩] }

theorem witness_BulkIsOpened : shed.part = .running ∧
    (∀ e ∈ [recipe 15 9999 1000, recipe 16 1 1000, recipe 2 1 1000, recipe 15 10000 1000, recipe 15 1 999, recipe 15 612 1000].map
      (fun p => (p.bytes, p)), (send shed 0x20 e.1).latches 0x20 readOpenBulk e.2) ∧
    (send charging 0x20 (recipe 15 1 1000).bytes).latches 0x20 readOpenBulk (recipe 15 1 1000) ∧
    shed.bulk? 15 = none ∧ shed.bulk? 2 ≠ none ∧ (shed.station 11).kind = .bin ∧ (∀ e ∈ shed.bulks, e.2.state ≠ .charging) ∧
    (∃ e ∈ charging.bulks, e.2.state = .charging ∧ ∃ d ∈ e.2.components, d.bin = 11) ∧ (∃ e ∈ shed.bulks, e.2.number = 612) ∧
    (∀ e ∈ shed.bulks, e.2.number ≠ 9999) ∧ textOk 6 [66] = true ∧ textOk 6 [78] = true :=
  ⟨by decide, latches_each (by decide) (by decide), latches_send (by decide) (by decide) (by decide), by decide⟩

theorem witness_BulkIsMixed : charged.part = .running ∧
    (∀ e ∈ [([15, 0], (15, 0)), ([16, 0], (16, 0)), ([5, 0], (5, 0)), ([5, 1], (5, 1)), ([5, 2], (5, 2)), ([15, 255], (15, 255))], (send charged 0x21 e.1).latches 0x21 readPair e.2) ∧
    (send unsettled 0x21 [5, 0]).latches 0x21 readPair (5, 0) ∧ (send charging 0x21 [5, 0]).latches 0x21 readPair (5, 0) ∧
    charged.bulk? 15 = none ∧ ((charged.bulk? 5).map Bulk.state = some .charging) ∧
    (∃ c ∈ (unsettled.bulkD 5).components, c.claim ≠ .none) ∧ (∀ c ∈ (charged.bulkD 5).components, c.claim = .none) ∧
    (charged.bulkD 5).charged ≠ 0 ∧ (charging.bulkD 5).charged = 0 ∧
    (∃ c ∈ (charged.bulkD 5).components, c.charged * 1000 < c.minShare * (charged.bulkD 5).charged) :=
  ⟨by decide, latches_each (by decide) (by decide), latches_send (by decide) (by decide) (by decide),
    latches_send (by decide) (by decide) (by decide), by decide⟩

theorem witness_ChargeIsSettled : unsettled.part = .running ∧
    (∀ e ∈ [([16, 1, 0, 0, 0, 0], (⟨16, 1, 0⟩ : SettleParams)), ([15, 1, 0, 0, 0, 0], ⟨15, 1, 0⟩), ([5, 0, 0, 0, 0, 0], ⟨5, 0, 0⟩),
      ([5, 4, 0, 0, 0, 0], ⟨5, 4, 0⟩), ([5, 3, 0xFF, 0xFF, 0xFF, 0xFF], ⟨5, 3, -1⟩), ([5, 3, 0, 7, 0xA1, 0x21], ⟨5, 3, 500001⟩),
      ([5, 1, 0, 0, 0, 0], ⟨5, 1, 0⟩), ([5, 3, 0, 7, 0xA1, 0x20], ⟨5, 3, 500000⟩), ([5, 3, 0, 0, 0, 0], ⟨5, 3, 0⟩)],
      (send unsettled 0x22 e.1).latches 0x22 readSettle e.2) ∧
    unsettled.bulk? 15 = none ∧ (unsettled.bulkD 5).state = .charging ∧ (unsettled.bulkD 5).components.length = 3 ∧
    ((unsettled.bulkD 5).components[0]?).map Component.claim = some .none ∧
    ((unsettled.bulkD 5).components[2]?).map Component.claim = some (.uncertain 49600) :=
  ⟨by decide, latches_each (by decide) (by decide), by decide⟩

theorem witness_BulkIsSpentOrFreed : shed.part = .running ∧
    (∀ e ∈ [([2], 2), ([15], 15), ([16], 16)], (send shed 0x23 e.1).latches 0x23 readOne e.2) ∧
    (∀ e ∈ [([2], 2), ([15], 15), ([16], 16)], (send shed 0x24 e.1).latches 0x24 readOne e.2) ∧
    shed.bulk? 15 = none ∧ shed.bulk? 2 = some bulkA ∧ bulkA.state = .mixed ∧ bulkA.lotRefs ≠ 0 ∧
    (∃ e ∈ shed.lots, e.2.bulk = 2 ∧ e.2.state ≠ .complete ∧ e.2.state ≠ .declared) ∧
    (∀ e ∈ finished.lots, e.2.bulk = 2 → e.2.state = .complete ∨ e.2.state = .declared) ∧
    (charging.bulkD 5).lotRefs = 0 ∧ (∀ c ∈ (charging.bulkD 5).components, c.claim = .none) ∧
    (unsettled.bulkD 5).lotRefs = 0 ∧ (∃ c ∈ (unsettled.bulkD 5).components, c.claim ≠ .none) :=
  ⟨by decide, latches_each (by decide) (by decide), latches_each (by decide) (by decide), by decide⟩

/-- The charging shed with a call of bin 11 and a claim in its component. -/
abbrev bidding (c : Claim) (x : Call) : State :=
  calls (charging.modBulk 5 (fun b => { b with components := [{ part1 with claim := c }] })) 11 x

/-- The component with a claim is the first of bulk 5 and bin 11 is its bin. -/
theorem charges_bidding (c : Claim) (x : Call) : ∃ b, (bidding c x).charges 5 b 0 { part1 with claim := c } 11 :=
  ⟨_, rfl, rfl, rfl, rfl, fun j h => absurd h (Nat.not_lt_zero j)⟩

theorem witness_ChargeIsGranted :
    (∀ s ∈ [bidding .none (.charge 500), bidding .none (.charge 0), bidding (.grant 1) (.charge 500), bidding (.uncertain 1) (.charge 500),
      calls shed 11 (.charge 500)], s.part = .running ∧ (s.station 11).join = .active ∧ (s.station 11).abilities = some (.bin 500000)) ∧
    ((bidding .none (.charge 500)).station 11).slot = some (.charge 500) ∧ (∀ e ∈ shed.bulks, e.2.state ≠ .charging) ∧
    (∀ c x, ∃ b, (bidding c x).charges 5 b 0 { part1 with claim := c } 11) :=
  ⟨by decide, by decide, by decide, charges_bidding⟩

theorem witness_ChargeIsCounted :
    (∀ s ∈ [bidding .none (.done 0), bidding (.grant 1) (.done 5), bidding (.uncertain 1) (.done 5), calls shed 11 (.done 5)],
      s.part = .running ∧ (s.station 11).join = .active) ∧
    ((bidding (.grant 1) (.done 5)).station 11).slot = some (.done 5) ∧ (∀ e ∈ shed.bulks, e.2.state ≠ .charging) ∧
    (∀ c x, ∃ b, (bidding c x).charges 5 b 0 { part1 with claim := c } 11) :=
  ⟨by decide, by decide, by decide, charges_bidding⟩

/-- The parameters of a lot on bulk 2 with class 1 and grade BOP. -/
def newLot (slot invoice planned step : Nat) : OpenLotParams :=
  { slot := slot, invoice := invoice, garden := [71], grade := [66, 79, 80], season := 99, bulk := 2, tareClass := 1, declNet := 150000
    step := step, margin := 5000, planned := planned, sampleLimit := 2000, overmark := 1 }

theorem witness_LotIsOpened : shed.part = .running ∧
    (∀ e ∈ [newLot 47 999999 96 200, newLot 48 1 1 10, newLot 3 1 1 10, newLot 0 1000000 1 10, newLot 0 1 97 10, newLot 0 1 1 20,
      newLot 0 4417 1 10, { newLot 0 1 1 10 with tareClass := 0 }, { newLot 0 1 1 10 with grade := [66] }].map (fun p => (p.bytes, p)),
      (send shed 0x30 e.1).latches 0x30 readOpenLot e.2) ∧
    (∀ e ∈ [newLot 47 999999 64 200, newLot 47 999999 65 200].map (fun p => (p.bytes, p)), (send budget 0x30 e.1).latches 0x30 readOpenLot e.2) ∧
    shed.lot? 47 = none ∧ shed.lot? 3 = some lotA ∧ shed.class? 1 ≠ none ∧ shed.class? 0 = none ∧ shed.bulk? 2 = some bulkA ∧
    bulkA.grade = [66, 79, 80] ∧ (∃ e ∈ shed.lots, e.2.invoice = 4417) ∧ (∀ e ∈ shed.lots, e.2.invoice ≠ 999999) ∧
    64 + budget.commitments ≤ 1984 ∧ 1984 < 65 + budget.commitments ∧ (200 : Int) ∣ 150000 :=
  ⟨by decide, latches_each (by decide) (by decide), latches_each (by decide) (by decide), by decide⟩

theorem witness_LotIsClosed : packed.part = .running ∧
    (∀ e ∈ [([3], 3), ([47], 47), ([48], 48)], (send packed 0x31 e.1).latches 0x31 readOne e.2) ∧
    packed.lot? 47 = none ∧ ((packed.lot? 3).map (fun l => (l.state, l.tentative, l.accepted)) = some (.packing, 0, 1)) ∧
    ((shed.lot? 3).map (fun l => (l.tentative, l.accepted)) = some (0, 0)) ∧
    (((packed.modLot 3 (fun l => { l with tentative := 1 })).lot? 3).map Lot.tentative = some 1) ∧
    ((finished.lot? 3).map Lot.state = some .complete) :=
  ⟨by decide, latches_each (by decide) (by decide), by decide⟩

theorem witness_LotIsDeclared : completed.part = .running ∧
    (∀ e ∈ [([3], 3), ([47], 47), ([48], 48)], (send completed 0x32 e.1).latches 0x32 readOne e.2) ∧
    completed.lot? 47 = none ∧ (completed.lot? 3).map (fun l => (l.state, l.outstanding, l.tareClass, l.bulk)) = some (.complete, 0, 1, 2) ∧
    (completed.lot? 3).map (fun l => (l.minTare, l.maxTare)) = some (some 5280, some 5400) ∧
    completed.class? 1 = some classA ∧ completed.bulk? 2 = some bulkA ∧ completed.allMarked 3 ∧
    (((completed.modLot 3 (fun l => { l with outstanding := 1 })).lot? 3).map Lot.outstanding = some 1) ∧
    ¬ (completed.setChest 612 (some { chestA with mark := .uncertain })).allMarked 3 := by
  refine ⟨by decide, latches_each (by decide) (by decide), by decide, by decide, by decide, by decide, by decide, ?_, by decide, ?_⟩
  · intro e he; exact absurd he (by simp [completed, shed, State.reset, State.setLane, State.setLot, State.setClass, State.setBulk,
      State.setStation, State.setVerification])
  · intro h
    have := h (612, { chestA with mark := .uncertain }) (by decide) (by decide)
    revert this; decide

theorem witness_LotIsRetired :
    (∀ e ∈ [([3], 3), ([47], 47), ([48], 48)], (send packed 0x33 e.1).latches 0x33 readOne e.2) ∧ packed.lot? 47 = none ∧
    ((packed.lot? 3).map (fun l => (l.state, l.accepted)) = some (.packing, 1)) ∧
    (let s := packed.modLot 3 (fun l => { l with state := .declared })
     s.part = .running ∧ s.chests.sorted = true ∧ (s.lot? 3).map (fun l => (l.state, l.outstanding)) = some (.declared, 0)) ∧
    ((packed.modLot 3 (fun l => { l with state := .declared, outstanding := 1 })).lot? 3).map (fun l => (l.state, l.outstanding)) =
      some (.declared, 1) ∧
    (((shed.setLane 2 none).setLot 3 (some { lotA with state := .opened, mappedLanes := 0 })).lot? 3).map
      (fun l => (l.state, l.accepted, l.tentative)) = some (.opened, 0, 0) :=
  ⟨latches_each (by decide) (by decide), by decide⟩

theorem witness_SampleIsDrawn : finished.part = .running ∧
    (∀ e ∈ [([48, 1, 0, 1, 7], (⟨48, 1, 1, 7⟩ : SampleParams)), ([47, 1, 0, 1, 7], ⟨47, 1, 1, 7⟩), ([3, 0, 0, 1, 7], ⟨3, 0, 1, 7⟩),
      ([3, 2, 0, 1, 7], ⟨3, 2, 1, 7⟩), ([3, 1, 0, 0, 7], ⟨3, 1, 0, 7⟩), ([3, 1, 0x03, 0xE9, 7], ⟨3, 1, 1001, 7⟩), ([3, 1, 0, 1, 4], ⟨3, 1, 1, 4⟩),
      ([3, 1, 0x03, 0xE8, 7], ⟨3, 1, 1000, 7⟩)], (send finished 0x34 e.1).latches 0x34 readSample e.2) ∧
    finished.lot? 47 = none ∧ (finished.lot? 3).map (fun l => (l.state, l.accepted, l.overmark, l.sampleLimit)) = some (.complete, 1, true, 1000) ∧
    finished.chestBySerial 3 1 = some (612, chestA) ∧ finished.chest? 612 = some chestA ∧ chestA.place = .accepted 3 1 2 ∧
    chestA.job = none ∧ chestA.mark = .marked ∧ (finished.station 7).kind = .stencil ∧ (finished.station 4).kind ≠ .stencil ∧
    (finished.head 7).queue.length < 16 ∧ 16 ≤ ((finished.setHead 7 { Head.cold with queue := List.replicate 16 ⟨1, .first⟩ }).head 7).queue.length ∧
    ((finished.modLot 3 (fun l => { l with overmark := false })).lot? 3).map Lot.overmark = some false :=
  ⟨by decide, latches_each (by decide) (by decide), by decide⟩

theorem witness_ReadsChangeNothing : packed.part = .running ∧
    (∀ e ∈ [([0, 15], Named.slot 15), ([0, 16], .slot 16), ([1, 0, 0], .number 0), ([1, 0x02, 0x64], .number 612), ([1, 0x27, 0x0F], .number 9999),
       ([2], .bad), ([255, 0], .bad)],
      (send packed 0x25 e.1).latches 0x25 (readNamed 2) e.2) ∧
    (∀ e ∈ [([0, 47], Named.slot 47), ([0, 48], .slot 48), ([1, 0, 0, 0, 0], .number 0), ([1, 0, 0, 0x11, 0x41], .number 4417),
      ([1, 0, 0x0F, 0x42, 0x3F], .number 999999), ([2, 7], .bad)], (send packed 0x35 e.1).latches 0x35 (readNamed 4) e.2) ∧
    (∀ d ∈ packed.bulks, d.2.number = 612 ↔ d = (2, bulkA)) ∧ (∀ d ∈ packed.bulks, d.2.number ≠ 9999) ∧
    (∀ d ∈ packed.lots, d.2.invoice = 4417) ∧ packed.lots.length = 1 ∧
    (∀ e ∈ [([3], 3), ([47], 47), ([48], 48)], (send packed 0x36 e.1).latches 0x36 readOne e.2) ∧
    ((after .declareLot (send completed 0x32 [3])).lot? 3).map (fun l => (l.state, l.declaration.isSome)) = some (.declared, true) ∧
    (∀ e ∈ [([0], 0), ([1], 1), ([8], 8), ([9], 9)], (send packed 0x44 e.1).latches 0x44 readOne e.2) ∧
    (∀ e ∈ [([0, 0x07, 0xFF], ChestName.id 2047), ([0, 0x08, 0], .id 2048), ([1, 3, 1], .serial 3 1), ([1, 3, 2], .serial 3 2), ([2, 0], .position 0),
      ([2, 64], .position 64), ([2, 65], .position 65), ([3], .bad), ([255, 1], .bad)], (send packed 0x50 e.1).latches 0x50 readChestName e.2) ∧
    packed.chestBySerial 3 1 = some (612, chestA) ∧ (send held 0x50 [2, 3]).latches 0x50 readChestName (.position 3) ∧ held.pool[2]? = some 655 ∧
    (∀ e ∈ [([7], 7), ([4], 4), ([15], 15)], (send packed 0x64 e.1).latches 0x64 readOne e.2) :=
  ⟨by decide, latches_each (by decide) (by decide), latches_each (by decide) (by decide), by decide, by decide, by decide, by decide,
    latches_each (by decide) (by decide), by decide, latches_each (by decide) (by decide), latches_each (by decide) (by decide), by decide,
    latches_send (by decide) (by decide) (by decide), by decide, latches_each (by decide) (by decide)⟩

theorem witness_LayoutsAreAsSpecified : lotA.garden.length ≤ 12 ∧ lotA.grade.length ≤ 6 ∧ (shed.station 7).kind ≠ .scale ∧
    (shed.station 4).kind = .scale ∧ shed.class? 7 = none ∧ shed.class? 1 = some classA ∧ shed.lane? 8 = none ∧ shed.lane? 2 = some laneA := by
  decide

/-- A mapping of lane `n` to lot `k` on scale `a` and head `h`, in NOMINAL mode (0) or INDIVIDUAL (1). -/
def mapping (n k a h mode : Nat) : MapLaneParams :=
  { lane := n, target := k, scale := a, stencil := some (some h), tareMode := mode, tareClass := some none, watch := 1 }

/-- A mapping of lane `n` to HOLD on scale `a` with a tare class. -/
def holding (n a c mode : Nat) : MapLaneParams :=
  { lane := n, target := 255, scale := a, stencil := some none, tareMode := mode, tareClass := some (some c), watch := 0 }

theorem witness_LaneIsMapped : twoScales.part = .running ∧
    (∀ e ∈ [mapping 8 3 6 7 1, mapping 1 3 6 7 0, mapping 0 3 6 7 0, mapping 9 3 6 7 0, mapping 8 48 6 7 0, mapping 8 3 0 7 0, mapping 8 3 15 7 0,
      mapping 8 3 6 7 2, mapping 8 47 6 7 0, mapping 2 3 6 7 0, mapping 8 3 4 7 0, mapping 8 3 6 4 0, holding 8 6 1 1, holding 8 6 7 0,
      { holding 8 6 1 0 with watch := 2 }, { mapping 8 3 6 7 0 with stencil := some none }].map (fun p => (p.bytes, p)),
      (send twoScales 0x40 e.1).latches 0x40 readMapLane e.2) ∧
    (send (twoScales.setClass 2 (some TareClass.blank)) 0x40 (holding 8 6 2 1).bytes).latches 0x40 readMapLane (holding 8 6 2 1) ∧
    twoScales.lane? 8 = none ∧ twoScales.lane? 2 ≠ none ∧ (twoScales.station 7).kind = .stencil ∧ (twoScales.station 6).kind = .scale ∧
    twoScales.lot? 3 = some lotA ∧ lotA.state = .packing ∧ twoScales.bulk? 2 = some bulkA ∧ bulkA.state = .mixed ∧
    (twoScales.lotD 3).tareClass = 1 ∧ twoScales.class? 1 = some classA ∧ classA.window = some (5000, 5600) ∧ twoScales.class? 7 = none ∧
    (∃ e ∈ twoScales.lanes, e.2.scale = 4) ∧ (∀ e ∈ twoScales.lanes, e.2.scale ≠ 6) ∧
    ({ mapping 8 3 6 7 0 with stencil := some none }).target?.isNone = true ∧ (mapping 8 48 6 7 0).target?.isNone = true :=
  ⟨by decide, latches_each (by decide) (by decide), latches_send (by decide) (by decide) (by decide), by decide⟩

theorem witness_LaneIsUnmapped : shed.part = .running ∧
    (∀ e ∈ [([2], 2), ([8], 8), ([0], 0), ([9], 9)], (send shed 0x41 e.1).latches 0x41 readOne e.2) ∧ shed.lane? 8 = none ∧
    shed.lane? 2 = some laneA ∧ laneA.tentative = none ∧ laneA.target = .lot 3 7 ∧ shed.lot? 3 = some lotA ∧
    (shed.setLane 2 (some { laneA with tentative := some 0 })).lane? 2 = some { laneA with tentative := some 0 } ∧
    (shed.setLane 2 (some { laneA with target := .hold })).lane? 2 = some { laneA with target := .hold } :=
  ⟨by decide, latches_each (by decide) (by decide), by decide⟩

theorem witness_LaneIsHeld : shed.part = .running ∧
    (∀ e ∈ [([2, 0], (2, 0)), ([0, 0], (0, 0)), ([9, 0], (9, 0)), ([8, 0], (8, 0)), ([2, 2], (2, 2))], (send shed 0x42 e.1).latches 0x42 readPair e.2) ∧
    shed.lane? 8 = none ∧ shed.lane? 2 = some laneA ∧ laneA.state = .running ∧ (laneA.tentative = none ∧ shed.wait laneA.scale = .none) ∧
    (shed.setWait 4 .lot).wait laneA.scale ≠ .none ∧
    (shed.setLane 2 (some { laneA with state := .holdPending .balance })).lane? 2 = some { laneA with state := .holdPending .balance } ∧
    (shed.setLane 2 (some { laneA with state := .held .oneDone })).lane? 2 = some { laneA with state := .held .oneDone } :=
  ⟨by decide, latches_each (by decide) (by decide), by decide⟩

/-- The shed with one queue of jobs, at head 7. -/
abbrev queued (s : State) (q : List Job) : State := s.setHead 7 { Head.cold with state := .ready, queue := q }

/-- Only head 7 of the shed has a queue. -/
theorem head_queued (q : List Job) (a : Nat) : ((queued shed q).head a).queue = if a = 7 then q else [] := by
  by_cases h : a = 7
  · subst h; rw [State.setHead_head]; simp
  · rw [State.setHead_head, if_neg h, if_neg h]; rfl

/-- A queue whose chests are distinct gives no chest two jobs. -/
theorem soleJobs_queued {q : List Job} (h : (q.map Job.chest).Nodup) : (queued shed q).soleJobs := by
  refine ⟨fun a => ?_, fun a b hab j hj i hi => ?_⟩
  · rw [head_queued]; split
    · exact h
    · simp
  · rw [head_queued] at hj hi
    split at hj
    · split at hi
      · omega
      · cases hi
    · cases hj

theorem witness_LaneIsForceHeld : shed.part = .running ∧
    (∀ e ∈ [([2, 1], (2, 1)), ([0, 1], (0, 1)), ([9, 1], (9, 1)), ([8, 1], (8, 1))], (send shed 0x42 e.1).latches 0x42 readPair e.2) ∧
    shed.lane? 8 = none ∧ shed.lane? 2 = some laneA ∧ (shed.station laneA.scale).join = .active ∧ shed.wait laneA.scale = .none ∧
    (shed.setWait 4 .pool).wait laneA.scale ≠ .none ∧ (queued shed [⟨612, .first⟩, ⟨613, .reprint⟩]).soleJobs ∧
    (let s := (shed.setLane 2 (some { laneA with tentative := some 613 })).setChest 613 (some { chestA with place := .tentative 3, mark := .none })
     s.lane? 2 = some { laneA with tentative := some 613 } ∧ s.chest? 613 = some { chestA with place := .tentative 3, mark := .none } ∧
     613 ∉ s.pool ∧ s.pool.length < 64 ∧ 64 ≤ (s.setPool (List.replicate 64 1)).pool.length ∧ 613 ∉ (s.setPool (List.replicate 64 1)).pool) :=
  ⟨by decide, latches_each (by decide) (by decide), by decide, by decide, by decide, by decide, by decide, soleJobs_queued (by decide), by decide⟩

theorem witness_LaneIsReleased : shed.part = .running ∧
    (∀ e ∈ [([2, 1, 2], (⟨2, 1, 2⟩ : ReleaseParams)), ([0, 0, 0], ⟨0, 0, 0⟩), ([9, 0, 0], ⟨9, 0, 0⟩), ([8, 0, 1], ⟨8, 0, 1⟩), ([2, 2, 0], ⟨2, 2, 0⟩),
      ([2, 0, 3], ⟨2, 0, 3⟩)], (send shed 0x43 e.1).latches 0x43 readRelease e.2) ∧
    shed.lane? 8 = none ∧ shed.lane? 2 = some laneA ∧ laneA.state = .running ∧
    (let s := shed.setLane 2 (some { laneA with state := .held .host })
     s.lane? 2 = some { laneA with state := .held .host } ∧ (s.station 4).join = .active ∧ (s.verification 4).state = .at (.verified 28800000) ∧
     laneA.target = .lot 3 7 ∧ (s.station 7).join = .active) :=
  ⟨by decide, latches_each (by decide) (by decide), by decide, by decide, by decide, by decide⟩

/-- The held chest 655 of section 2.11 with another net. -/
abbrev heldNet (x : Int) : State := held.modChest 655 (fun c => { c with net := x })

theorem witness_HeldChestIsAssigned : held.part = .running ∧
    (∀ e ∈ [([0x02, 0x8F, 3, 7], (⟨655, 3, 7⟩ : AssignParams)), ([0x08, 0, 3, 7], ⟨2048, 3, 7⟩), ([0x02, 0x8F, 48, 7], ⟨655, 48, 7⟩),
      ([0x07, 0xFF, 3, 7], ⟨2047, 3, 7⟩), ([0x02, 0x8F, 47, 7], ⟨655, 47, 7⟩), ([0x02, 0x8F, 3, 4], ⟨655, 3, 4⟩)],
      (send held 0x51 e.1).latches 0x51 readAssign e.2) ∧
    held.chest? 2047 = none ∧ held.lot? 47 = none ∧ (held.chestD 655).place = .held .unassigned none ∧ (held.chest? 655).isSome ∧
    (held.lot? 3).map (fun l => (l.state, l.accepted + l.tentative, l.planned, l.margin)) = some (.packing, 30, 40, 400) ∧
    (held.bulk? 2).map (fun b => (b.state, b.charged, b.drawn, b.allowance)) = some (.mixed, 1000000, 964700, 5) ∧
    (held.station 7).kind = .stencil ∧ (held.station 4).kind ≠ .stencil ∧ (held.head 7).queue.length < 16 ∧
    ((held.station 6).kind = .scale ∧ (held.station 6).join = .active ∧ (held.station 6).division = 50) ∧
    ((heldNet 40049).chestD 655).net < 40000 + 50 ∧ 40000 + 50 ≤ ((heldNet 40050).chestD 655).net ∧ ((heldNet 40400).chestD 655).net ≤ 40000 + 400 ∧
    40000 + 400 < ((heldNet 40401).chestD 655).net ∧ 964700 + 40200 ≤ 1000000 + 1000000 * 5 / 1000 ∧
    1000000 + 1000000 * 5 / 1000 < 964700 + 40400 ∧ ((held.modLot 3 (fun l => { l with margin := 49 })).lotD 3).margin < 50 ∧
    ((held.modLot 3 (fun l => { l with accepted := 39 })).lotD 3).accepted + 1 = 40 ∧
    ((held.modLot 3 (fun l => { l with accepted := 40 })).lotD 3).planned ≤ 40 :=
  ⟨by decide, latches_each (by decide) (by decide), by decide⟩

theorem witness_AcceptedChestIsRemoved : packed.part = .running ∧
    (send packed 0x52 [0x02, 0x64]).latches 0x52 readChestId 612 ∧ (send packed 0x53 [0x02, 0x64]).latches 0x53 readChestId 612 ∧
    packed.chest? 612 = some chestA ∧ chestA.place = .accepted 3 1 2 ∧ chestA.recNet = some 40000 ∧ chestA.job = none ∧
    (packed.lot? 3).map (fun l => (l.state, l.accepted)) = some (.packing, 1) ∧ packed.pool.length < 64 ∧
    64 ≤ (packed.setPool (List.replicate 64 1)).pool.length ∧
    ((packed.modLot 3 (fun l => { l with state := .finishing, cause := some .filled })).lot? 3).map (fun l => (l.state, l.cause)) =
      some (.finishing, some .filled) ∧
    ((finished.lot? 3).map Lot.state = some .complete) ∧ (ready.chest? 612).map Chest.job = some (some .first) :=
  ⟨by decide, latches_send (by decide) (by decide) (by decide), latches_send (by decide) (by decide) (by decide), by decide⟩

theorem witness_HeldChestIsVoided : held.part = .running ∧
    (∀ e ∈ [([0x02, 0x65], 613), ([0x07, 0xFF], 2047), ([0x08, 0], 2048)], (send held 0x53 e.1).latches 0x53 readChestId e.2) ∧
    (∀ e ∈ [([0x02, 0x65], 613), ([0x07, 0xFF], 2047), ([0x08, 0], 2048)], (send held 0x52 e.1).latches 0x52 readChestId e.2) ∧
    held.chest? 2047 = none ∧ (held.chest? 613).map Chest.place = some (.held .unassigned none) ∧
    ((held.setChest 2047 (some { chestA with place := .tentative 3 })).chest? 2047).map Chest.place = some (.tentative 3) :=
  ⟨by decide, latches_each (by decide) (by decide), latches_each (by decide) (by decide), by decide, by decide, by decide⟩

theorem witness_HeadIsPausedAndResumed : shed.part = .running ∧
    (∀ e ∈ [([7], 7), ([0], 0), ([15], 15), ([4], 4)], (send shed 0x60 e.1).latches 0x60 readOne e.2) ∧
    (∀ e ∈ [([7, 0], (7, 0)), ([7, 1], (7, 1)), ([7, 2], (7, 2)), ([4, 0], (4, 0)), ([15, 1], (15, 1))], (send shed 0x61 e.1).latches 0x61 readPair e.2) ∧
    (shed.station 7).kind = .stencil ∧ (shed.station 4).kind ≠ .stencil ∧ (shed.head 7).state = .idle ∧
    (∀ st ∈ [HeadState.ready, .sending, .printing, .pausePending, .paused .lost], ((shed.setHead 7 { Head.cold with state := st }).head 7).state = st) :=
  ⟨by decide, latches_each (by decide) (by decide), latches_each (by decide) (by decide), by decide, by decide, by decide, by decide⟩

theorem witness_HeadIsFlushed : packed.part = .running ∧
    (∀ e ∈ [([7], 7), ([4], 4), ([15], 15)], (send packed 0x62 e.1).latches 0x62 readOne e.2) ∧ (packed.station 7).kind = .stencil ∧
    (packed.station 4).kind ≠ .stencil ∧ (packed.head 7).state = .idle ∧
    (let s := (packed.modChest 612 (fun c => { c with mark := .uncertain, job := some .first })).setHead 7
       { Head.cold with state := .paused .lost, queue := [⟨612, .first⟩] }
     (s.head 7).state = .paused .lost ∧ ((s.head 7).queue.map Job.chest).Nodup ∧ (s.head 7).queue = [⟨612, .first⟩] ∧
     (s.chest? 612).map Chest.mark = some .uncertain) ∧
    ((packed.setHead 7 { Head.cold with state := .paused .host }).head 7).queue = [] :=
  ⟨by decide, latches_each (by decide) (by decide), by decide⟩

theorem witness_ChestIsReprinted : packed.part = .running ∧
    (∀ e ∈ [([0x02, 0x64, 7], (⟨612, 7⟩ : ReprintParams)), ([0x08, 0, 7], ⟨2048, 7⟩), ([0x07, 0xFF, 7], ⟨2047, 7⟩), ([0x02, 0x64, 4], ⟨612, 4⟩),
      ([0x02, 0x64, 15], ⟨612, 15⟩)], (send packed 0x63 e.1).latches 0x63 readReprint e.2) ∧
    packed.chest? 2047 = none ∧ packed.chest? 612 = some chestA ∧ chestA.place = .accepted 3 1 2 ∧ chestA.job = none ∧
    (packed.station 7).kind = .stencil ∧ (packed.station 4).kind ≠ .stencil ∧ (packed.head 7).queue.length < 16 ∧
    16 ≤ ((queued packed (List.replicate 16 ⟨1, .first⟩)).head 7).queue.length ∧ (ready.chest? 612).map Chest.job = some (some .first) :=
  ⟨by decide, latches_each (by decide) (by decide), by decide⟩

theorem witness_VerificationIsCommanded : shed.part = .running ∧
    (∀ e ∈ [([4, 0x05, 0xA0, 240, 1, 0x03, 0xE8], (⟨4, 1440, 240, 1, 1000⟩ : SetVerifyParams)), ([4, 0, 10, 0, 0, 0, 0], ⟨4, 10, 0, 0, 0⟩),
      ([4, 0, 9, 0, 0, 0, 0], ⟨4, 9, 0, 0, 0⟩), ([4, 0, 10, 241, 0, 0, 0], ⟨4, 10, 241, 0, 0⟩), ([7, 0, 10, 0, 0, 0, 0], ⟨7, 10, 0, 0, 0⟩)],
      (send shed 0x70 e.1).latches 0x70 readSetVerify e.2) ∧
    (∀ e ∈ [([4, 0, 0, 0x03, 0xE8], (⟨4, 1000⟩ : VerifyParams)), ([4, 0, 0, 0x03, 0xE7], ⟨4, 999⟩), ([4, 0, 0, 0xEA, 0x60], ⟨4, 60000⟩),
      ([4, 0, 0, 0xEA, 0x61], ⟨4, 60001⟩), ([7, 0, 0, 0x03, 0xE8], ⟨7, 1000⟩)], (send shed 0x71 e.1).latches 0x71 readVerify e.2) ∧
    (∀ e ∈ [([4], 4), ([7], 7), ([15], 15)], (send shed 0x72 e.1).latches 0x72 readOne e.2) ∧
    (shed.station 4).kind = .scale ∧ (shed.station 7).kind ≠ .scale ∧ (shed.station 4).join = .active ∧ (shed.station 4).capacity = 60000 ∧
    (shed.setStation 4 { scale with join := .absent }).isActive 4 = false ∧ (shed.station 4).order = none ∧
    (shed.verification 4).state = .at (.verified 28800000) ∧ (∀ e ∈ (shed.setLane 2 none).lanes, e.2.scale ≠ 4) ∧
    (∃ e ∈ shed.lanes, e.2.scale = 4 ∧ e.2.state = .running) ∧
    ((shed.setStation 4 { scale with order := some .testEnd }).station 4).order ≠ none ∧
    (∀ b ∈ [true, false], ((shed.setVerification 4 { verified with state := .testing .suspended 20000 b }).verification 4).state = .testing .suspended 20000 b) :=
  ⟨by decide, latches_each (by decide) (by decide), latches_each (by decide) (by decide), latches_each (by decide) (by decide), by decide⟩

/-- The shed with scale 4 under test and a test reading in its slot. -/
abbrev testing (sent : Bool) (r : Reading) : State :=
  calls (shed.setVerification 4 { verified with state := .testing .unverified 20000 sent }) 4 (.test r)

theorem witness_TestReadingIsCompared :
    (∀ r ∈ [{ stableAt 1 with stable := false }, { stableAt 1 with overload := true }, stableAt 60001, { stableAt 60000 with underload := true }, stableAt 60000],
      ∀ b ∈ [true, false], let s := testing b r
        s.part = .running ∧ (s.station 4).join = .active ∧ (s.station 4).slot = some (.test r) ∧
        (s.verification 4).state = .testing .unverified 20000 b ∧ (s.station 4).capacity = 60000) ∧
    (stableAt 60000).passes 60000 := by
  refine ⟨by decide, ?_⟩
  refine ⟨by decide, by decide, by decide, by decide⟩

theorem witness_TimersExpire : shed.part ≠ .retain ∧
    ((shed.setHead 7 { Head.cold with interval := some 0 }).head 7).interval = some 0 ∧
    ((shed.setVerification 4 { verified with state := .at (.verified 0) }).verification 4).state = .at (.verified 0) ∧
    (∀ act ∈ [Action.warn, .suspend], let s := shed.setVerification 4 { verified with state := .at (.due (.running 0)), action := act }
      (s.verification 4).state = .at (.due (.running 0)) ∧ (s.verification 4).action = act) ∧
    (shed.serves 2 laneA 4 ∧ laneA.state = .running ∧ laneA.tentative = none ∧ shed.wait 4 = .none ∧ (shed.setWait 4 .lot).wait 4 ≠ .none) ∧
    shed.laneOf 14 = none ∧ (∀ n ∈ [248, 249], ((shed.setStation 14 (away (.announcing n) 0)).station 14).join = .announcing n) ∧
    (∀ n ∈ [498, 499], ((shed.setStation 1 (away (.lost n) 500)).station 1).join = .lost n) ∧
    (∀ n ∈ [498, 499], ((shed.setStation 1 (away .refused n)).station 1).silence = n) := by
  refine ⟨by decide, by decide, by decide, by decide, ⟨⟨by decide, by decide⟩, by decide, by decide, by decide, by decide⟩, by decide, by decide, by decide,
    by decide⟩

/-- The shed with a gross reading in the slot of scale 4. -/
abbrev weighed (r : Reading) : State := calls shed 4 (.gross r)

theorem weighs_weighed (r : Reading) (h : r.passes 60000) : (weighed r).weighs 4 r 2 laneA :=
  ⟨⟨rfl, by decide, by decide, rfl, rfl⟩, rfl, ⟨rfl, rfl⟩, by decide, by decide, (fun x e => by cases e), h⟩

theorem witness_GrossCallIsScreened :
    (∀ r ∈ [{ stableAt 1 with stable := false }, { stableAt 1 with overload := true }, stableAt 60001, { stableAt 60000 with underload := true }, stableAt 60000],
      (weighed r).part = .running ∧ ((weighed r).station 4).join = .active ∧ ((weighed r).station 4).slot = some (.gross r)) ∧
    (∀ st ∈ [VerifyState.testing .unverified 1 true, .at .unverified, .at .suspended, .at (.due .expired)],
      ((shed.setVerification 4 { verified with state := st }).verification 4).state = st) ∧
    ((weighed (stableAt 1)).verification 4).state.fit = true ∧ (∀ e ∈ (shed.setLane 2 none).lanes, e.2.scale ≠ 4) ∧
    shed.serves 2 laneA 4 ∧ (shed.setLane 2 (some { laneA with state := .held .host })).serves 2 { laneA with state := .held .host } 4 ∧
    (shed.setLane 2 (some { laneA with tareMode := .individual })).serves 2 { laneA with tareMode := .individual } 4 ∧ (stableAt 60000).passes 60000 := by
  refine ⟨by decide, by decide, by decide, by decide, ⟨by decide, by decide⟩, ⟨by decide, by decide⟩, ⟨by decide, by decide⟩, by decide, by decide, by decide, by decide⟩

/-- Both limits of the acceptance band of section 5.8, new and at the reweigh. -/
theorem witness_GrossCallAcceptsChest : (stableAt 45329).passes 60000 ∧ (stableAt 45719).passes 60000 ∧
    (∀ r, r.passes 60000 → (weighed r).weighs 4 r 2 laneA) ∧ laneA.target = .lot 3 7 ∧ shed.lot? 3 = some lotA ∧ shed.bulk? lotA.bulk = some bulkA ∧
    (shed.head 7).queue.length < 16 ∧ laneA.tentative = none ∧ shed.supplies laneA 5300 ∧ shed.nextRecord 0 ∧
    lotA.accepted + lotA.tentative < lotA.planned ∧ lotA.accepts (((45329 / 20 * 20 : Nat) : Int) - 5300) 20 ∧
    lotA.accepts (((45719 / 20 * 20 : Nat) : Int) - 5300) 20 ∧ bulkA.covers (lotA.recorded 40400) ∧
    ((shed.setLane 2 (some { laneA with tentative := some 613 })).setChest 613 (some chestA)).chest? 613 = some chestA := by
  refine ⟨⟨by decide, by decide, by decide, by decide⟩, ⟨by decide, by decide, by decide, by decide⟩, fun r h => weighs_weighed r h, by decide, by decide,
    by decide, by decide, by decide, Or.inl ⟨by decide, classA, by decide, by decide⟩, ⟨by decide, by decide, fun j h => absurd h (Nat.not_lt_zero j)⟩,
    by decide, ⟨by decide, by decide, by decide⟩, ⟨by decide, by decide, by decide⟩, ?_, by decide⟩
  show _ ≤ _; decide

theorem witness_GrossCallHoldsChest : (∀ r, r.passes 60000 → (weighed r).weighs 4 r 2 laneA) ∧ (stableAt 45310).passes 60000 ∧
    lotA.fails (((45310 / 20 * 20 : Nat) : Int) - 5300) 20 .short ∧ lotA.fails (((45721 / 20 * 20 : Nat) : Int) - 5300) 20 .over ∧
    { lotA with margin := 0 }.fails 40000 20 .resolution ∧ lotA.accepts 40380 20 ∧ ¬ { bulkA with drawn := 1170000 }.covers (lotA.recorded 40380) ∧
    shed.pool.length < 64 ∧ shed.supplies laneA 5300 ∧ shed.nextRecord 0 ∧
    (shed.setLane 2 (some { laneA with target := .hold })).lane? 2 = some { laneA with target := .hold } ∧
    (shed.setChest 613 (some { chestA with place := .tentative 3 })).chest? 613 = some { chestA with place := .tentative 3 } := by
  refine ⟨fun r h => weighs_weighed r h, ⟨by decide, by decide, by decide, by decide⟩, ⟨by decide, by decide⟩, ⟨by decide, by decide, by decide⟩, ?_,
    ⟨by decide, by decide, by decide⟩, ?_, by decide, Or.inl ⟨by decide, classA, by decide, by decide⟩,
    ⟨by decide, by decide, fun j h => absurd h (Nat.not_lt_zero j)⟩, by decide, by decide⟩
  · show _ < _; decide
  · show ¬ _ ≤ _; decide

theorem witness_GrossCallWaits : (∀ r, r.passes 60000 → (weighed r).weighs 4 r 2 laneA) ∧ (stableAt 45310).passes 60000 ∧ shed.supplies laneA 5300 ∧
    { lotA with accepted := 3, tentative := 1 }.planned ≤ 3 + 1 ∧ lotA.accepts 40380 20 ∧ bulkA.covers (lotA.recorded 40380) ∧
    16 ≤ ((queued shed (List.replicate 16 ⟨1, .first⟩)).head 7).queue.length ∧ ¬ { bulkA with drawn := 1170000 }.covers (lotA.recorded 40380) ∧
    64 ≤ (shed.setPool (List.replicate 64 1)).pool.length ∧ lotA.fails 40000 20 .short := by
  refine ⟨fun r h => weighs_weighed r h, ⟨by decide, by decide, by decide, by decide⟩, Or.inl ⟨by decide, classA, by decide, by decide⟩, by decide,
    ⟨by decide, by decide, by decide⟩, ?_, by decide, ?_, by decide, ⟨by decide, by decide⟩⟩
  · show _ ≤ _; decide
  · show ¬ _ ≤ _; decide

theorem witness_TareCallIsTaken :
    (∀ r ∈ [{ stableAt 1 with stable := false }, stableAt 60001, { stableAt 60000 with underload := true }, stableAt 4999, stableAt 5000, stableAt 5600, stableAt 5601],
      let s := calls shed 4 (.tare r)
      s.part = .running ∧ (s.station 4).join = .active ∧ (s.station 4).slot = some (.tare r)) ∧
    (shed.verification 4).state.fit = true ∧ (∀ e ∈ (shed.setLane 2 none).lanes, e.2.scale ≠ 4) ∧ shed.serves 2 laneA 4 ∧
    (shed.setLane 2 (some { laneA with state := .holdPending .host })).serves 2 { laneA with state := .holdPending .host } 4 ∧
    (shed.setLane 2 (some { laneA with tareMode := .individual })).serves 2 { laneA with tareMode := .individual } 4 ∧
    (shed.setLane 2 (some { laneA with tareMode := .individual, pendingTare := some 1 })).serves 2
      { laneA with tareMode := .individual, pendingTare := some 1 } 4 ∧
    (stableAt 5600).passes 60000 ∧ shed.class? laneA.tareClass = some classA ∧ classA.window = some (5000, 5600) := by
  refine ⟨by decide, by decide, by decide, ⟨by decide, by decide⟩, ⟨by decide, by decide⟩, ⟨by decide, by decide⟩, ⟨by decide, by decide⟩,
    ⟨by decide, by decide, by decide, by decide⟩, by decide, by decide⟩

theorem witness_MarkOutcomeIsSettled :
    (∀ s ∈ [printing, printing.modHead 7 (fun h => { h with oneMark := true }), printing.modHead 7 (fun h => { h with state := .pausePending, reply := some 0 })],
      s.part = .running ∧ ((s.head 7).state = .printing ∨ (s.head 7).state = .pausePending) ∧ (s.head 7).reply ≠ none ∧
      (s.head 7).queue = [⟨612, .first⟩] ∧ (s.chest? 612).map Chest.place = some (.accepted 3 1 2) ∧ (s.lot? 3).isSome ∧ (s.station 7).join = .active) ∧
    ((calls printing 7 .replyDone).station 7).slot = some .replyDone ∧ ((calls printing 7 (.replyFault .jam)).station 7).slot = some (.replyFault .jam) ∧
    (shed.head 7).state = .idle ∧ ((printing.modHead 7 (fun h => { h with reply := some 0 })).head 7).reply = some 0 := by decide

theorem witness_LinkCycleTurns : shed.part ≠ .retain ∧
    (∀ v ∈ [away (.announcing 249) 0, away (.lost 499) 500, away .refused 499], ((shed.setStation 11 v).station 11).slotOpen = true ∧
      ((shed.setStation 11 v).station 11).afterSilence.join = .absent) ∧ shed.cycle = none ∧ { shed with cycle := some 65535 }.cycle = some 65535 ∧
    ((shed.setStation 4 { scale with answers := [.refuse] }).station 4).answers = [.refuse] ∧
    (∀ o ∈ [Order.test 20000, .testEnd], ((shed.setStation 4 { scale with order := some o }).station 4).order = some o) ∧
    (∀ i ∈ [1, 9, 10], let s := printing.modHead 7 (fun h => { h with state := .sending, reply := none, message := h.message.map (fun m => { m with next := i }) })
      (s.head 7).state = .sending ∧ (s.head 7).reply = none ∧ (s.head 7).message.map Message.next = some i ∧ (s.station 7).answers = [] ∧ (s.station 7).order = none) ∧
    ((printing.head 7).state = .printing ∧ (printing.head 7).reply ≠ none) ∧
    ((ready.head 7).state = .ready ∧ (ready.station 7).join = .active ∧ (ready.head 7).interval = none ∧ ready.part = .running ∧
      (ready.head 7).queue = [⟨612, .first⟩] ∧ (ready.chest? 612).map Chest.place = some (.accepted 3 1 2) ∧ (ready.lot? 3).isSome) ∧
    ((shed.verification 4).state = .at (.verified 28800000)) := by decide

theorem witness_InboundWordIsJudged : shed.part ≠ .retain ∧
    (let gross := Inbound.word 4 (.call (.gross (stableAt 45387)))
     oddParity gross = true ∧ wordAddress gross = 4 ∧ inboundOf gross = .call (.gross (stableAt 45387)) ∧ oddParity (gross ^^^ 1#32) = false ∧ wordAddress gross ≠ 14) ∧
    (let w := Inbound.word 14
     inboundOf (w .present) = .present ∧ inboundOf (w .unknown) = .unknown ∧ inboundOf (w (.announce (.b 524287))) = .announce (.b 524287) ∧
     inboundOf (w (.call .replyDone)) = .call .replyDone ∧ wordAddress (w .present) = 14 ∧ oddParity (w .present) = true) ∧
    (∀ j ∈ [Join.absent, .announcing 0, .announcing 249, .active, .refused, .lost 0, .lost 499],
      let v := (unjudged (shed.setStation 14 { bin with join := j }) 14).station 14
      v.join = j ∧ v.slotOpen = true) ∧
    (shed.station 4).slotOpen = false ∧ (shed.station 4).kind = .scale ∧ (shed.station 4).slot = none ∧
    (let v := (unjudged (weighed (stableAt 1)) 4).station 4; v.slotOpen = true ∧ v.slot ≠ none) := by decide

/-- The announce words of station 8, and its entry after pages A and B. -/
theorem witness_AnnounceIsJudged : shed.part ≠ .retain ∧
    (∀ e ∈ [(Inbound.word 8 (.announce (.a .stencil)), Inbound.announce (.a .stencil)), (Inbound.word 8 (.announce (.b 100)), .announce (.b 100)),
      (Inbound.word 8 (.announce (.c 10000)), .announce (.c 10000))], oddParity e.1 = true ∧ wordAddress e.1 = 8 ∧ inboundOf e.1 = e.2) ∧
    (∀ p ∈ [(⟨.stencil, none, none⟩ : Pages), ⟨.stencil, some 100, none⟩, ⟨.scale, some 200, none⟩, ⟨.bin, some 500000, none⟩],
      ∀ n ∈ [3, 249], let s := shed.setStation 8 { Station.cold with kind := p.kind, join := .announcing n, slotOpen := true, pages := some p }
      (s.station 8).slotOpen = true ∧ (s.station 8).join = .announcing n ∧ (s.station 8).pages = some p ∧ (s.station 8).kind = p.kind) ∧
    (let v := (unjudged shed 8).station 8; v.join = .absent ∧ v.slotOpen = true) ∧ (100 ≤ 5000 ∧ 200 ≤ 10000) := by decide

theorem witness_StationIsLost :
    (let s := printing
     s.part ≠ .retain ∧ (s.station 7).join = .active ∧ 25 ≤ (s.station 7).silence ∧ s.canonical = true ∧ (s.head 7).message.isSome) ∧
    (∀ n l, printing.lane? n = some l → 1 ≤ n ∧ n ≤ 8) := by
  refine ⟨by decide, fun n l h => ?_⟩
  change (if 2 = n then some laneA else none) = some l at h
  split at h
  · omega
  · cases h

/-- The greatest value of each layout. -/
theorem witness_SentIsRead :
    (let p : TareClassParams := ⟨255, 65535, 65535, some (some (65535, 65535))⟩
     p.number < 256 ∧ p.window = some (some (65535, 65535)) ∧ readSetTareClass p.bytes = some p) ∧
    (let p : SettleParams := ⟨255, 255, -2147483648⟩
     p.slot < 256 ∧ -2147483648 ≤ p.mass ∧ p.mass < 2147483648 ∧ readSettle p.bytes = some p) ∧
    (let p : MapLaneParams := { mapping 255 255 255 255 255 with watch := 255 }
     p.lane < 256 ∧ p.stencil = some (some 255) ∧ readMapLane p.bytes = some p) ∧
    (15 < 16 ∧ 8388607 < 8388608) ∧ (∀ g ∈ [(stableAt 262143)], g.grams < 262144) ∧
    (∀ n ∈ [0, 65535], n < 256 ^ 2 ∧ readNamed 2 ((Named.number n).bytes 2) = some (.number n) ∧ readChestName (ChestName.id n).bytes = some (.id n)) ∧
    readNamed 4 [2, 7] = some .bad ∧ readChestName [255] = some .bad ∧
    (let f : MarkFields := ⟨.overmark, 127, [78, 49, 52, 32, 45, 47, 46], [65, 90, 48, 57], 1048575, 524287, 524287, 127⟩
     f.serial < 128 ∧ f.invoice < 1048576 ∧ f.printedNet < 524288 ∧ f.season < 128 ∧ (∀ b ∈ f.garden ++ f.grade, b ∈ characters) ∧
     carries (markWord 15 f 0) 15 4 (262144 + 127 * 1024 + 1) ∧ carries (markWord 15 f 10) 15 4 (10 * 524288 + 127)) := by
  simp only [carries]; decide +kernel

/-- The laws hold in a shed with a lane, a lot, a MIXED bulk and an accepted chest, and a step from it goes on. -/
theorem witness_StepKeepsBulksBalanced : packed.bulksBalance ∧ (∃ t, step { packed with pending := [.linkCycle] } = .next t) := by
  refine ⟨⟨by decide, fun k b h => ?_⟩, _, rfl⟩
  change (if 2 = k then some bulkA else none) = some b at h
  split at h
  · cases h; decide
  · cases h

/-- The packed shed has one lane, 2, one lot, 3, and one chest, 612. -/
theorem packed_lane {n : Nat} {l : Lane} (h : packed.lane? n = some l) : n = 2 ∧ l = laneA := by
  change (if 2 = n then some laneA else none) = some l at h
  split at h
  · cases h; exact ⟨by omega, rfl⟩
  · cases h

theorem packed_lot {k : Nat} {l : Lot} (h : packed.lot? k = some l) : k = 3 ∧ packed.lot? 3 = some l := by
  have hk : 3 = k := by
    change (if 3 = k then some _ else none) = some l at h
    split at h
    · assumption
    · cases h
  subst hk; exact ⟨rfl, h⟩

theorem lanesCounted_packed : packed.lanesCounted := by
  refine ⟨by decide, fun n l h => ?_, fun n l k a h ht => ?_, fun k l h => ?_⟩
  · have := (packed_lane h).1; omega
  · obtain ⟨-, rfl⟩ := packed_lane h; cases ht; decide
  · obtain ⟨rfl, h⟩ := packed_lot h; cases h; decide

theorem witness_StepKeepsNetsInBand : packed.netsInBand ∧ (∃ t, step { packed with pending := [.linkCycle] } = .next t) := by
  refine ⟨⟨lanesCounted_packed, fun k l h => ?_, fun id c k n b h hp => ?_⟩, _, rfl⟩
  · obtain ⟨rfl, h⟩ := packed_lot h; cases h; decide
  · change (if 612 = id then some chestA else none) = some c at h
    split at h
    · cases h; cases hp
      exact ⟨_, 40000, rfl, rfl, by decide⟩
    · cases h

theorem witness_StepKeepsCapacities : packed.withinCapacity ∧ packed.oneLanePerScale ∧ packed.recordsAgree ∧
    (∃ t, step { packed with pending := [.linkCycle] } = .next t) := by
  refine ⟨⟨by decide, fun a => ?_⟩, fun m n l l' hm hn _ => ?_, ⟨lanesCounted_packed, ⟨⟨fun a => ?_, fun a b _ j hj => ?_⟩, fun a j hj => ?_, fun k l h => ?_⟩,
    ⟨fun n l id h ht => ?_, fun m n l l' id hm hn _ _ => ?_, fun k l h => ?_, fun n l k a h ht => ?_⟩, by decide, fun k l h => ?_⟩, _, rfl⟩
  · change Head.cold.queue.length ≤ 16; decide
  · have := (packed_lane hm).1; have := (packed_lane hn).1; omega
  · change (Head.cold.queue.map Job.chest).Nodup; decide
  · change j ∈ Head.cold.queue at hj; cases hj
  · change j ∈ Head.cold.queue at hj; cases hj
  · obtain ⟨rfl, h⟩ := packed_lot h; cases h; decide
  · obtain ⟨-, rfl⟩ := packed_lane h; cases ht
  · have := (packed_lane hm).1; have := (packed_lane hn).1; omega
  · obtain ⟨rfl, h⟩ := packed_lot h; cases h; decide
  · obtain ⟨-, rfl⟩ := packed_lane h; cases ht; decide
  · obtain ⟨rfl, h⟩ := packed_lot h; cases h; decide

end Sys2Proof.Tests
end

section
/-! PROOFS. The canonical form under every named write, and when the tables of a state are in it. -/

namespace Sys2Proof.Machine

theorem State.canonical_iff (s : State) : s.canonical = true ↔
    s.lots.sorted = true ∧ s.classes.sorted = true ∧ s.bulks.sorted = true ∧ s.lanes.sorted = true ∧
    s.chests.sorted = true ∧ s.stations.canonical Station.cold = true ∧
    s.verifications.canonical Verification.cold = true ∧ s.heads.canonical Head.cold = true ∧
    s.waits.canonical WaitKind.none = true ∧ s.notices.canonical Notice.cold = true := by
  simp only [State.canonical, Bool.and_eq_true, and_assoc]

section Writes

variable {s : State} (h : s.canonical = true)
include h

theorem State.canonical_setLot (k : Nat) (o : Option Lot) : (s.setLot k o).canonical = true := by
  simp_all [State.canonical_iff, State.setLot, Table.sorted_put]
theorem State.canonical_modLot (k : Nat) (f : Lot → Lot) : (s.modLot k f).canonical = true := by
  simp_all [State.canonical_iff, State.modLot, Table.sorted_modify]
theorem State.canonical_setClass (k : Nat) (o : Option TareClass) : (s.setClass k o).canonical = true := by
  simp_all [State.canonical_iff, State.setClass, Table.sorted_put]
theorem State.canonical_setBulk (k : Nat) (o : Option Bulk) : (s.setBulk k o).canonical = true := by
  simp_all [State.canonical_iff, State.setBulk, Table.sorted_put]
theorem State.canonical_modBulk (k : Nat) (f : Bulk → Bulk) : (s.modBulk k f).canonical = true := by
  simp_all [State.canonical_iff, State.modBulk, Table.sorted_modify]
theorem State.canonical_setLane (n : Nat) (o : Option Lane) : (s.setLane n o).canonical = true := by
  simp_all [State.canonical_iff, State.setLane, Table.sorted_put]
theorem State.canonical_modLane (n : Nat) (f : Lane → Lane) : (s.modLane n f).canonical = true := by
  simp_all [State.canonical_iff, State.modLane, Table.sorted_modify]
theorem State.canonical_setChest (id : Nat) (o : Option Chest) : (s.setChest id o).canonical = true := by
  simp_all [State.canonical_iff, State.setChest, Table.sorted_put]
theorem State.canonical_modChest (id : Nat) (f : Chest → Chest) : (s.modChest id f).canonical = true := by
  simp_all [State.canonical_iff, State.modChest, Table.sorted_modify]
theorem State.canonical_setStation (a : Nat) (v : Station) : (s.setStation a v).canonical = true := by
  simp_all [State.canonical_iff, State.setStation, Table.canonical_setD]
theorem State.canonical_setVerification (a : Nat) (v : Verification) : (s.setVerification a v).canonical = true := by
  simp_all [State.canonical_iff, State.setVerification, Table.canonical_setD]
theorem State.canonical_setHead (a : Nat) (v : Head) : (s.setHead a v).canonical = true := by
  simp_all [State.canonical_iff, State.setHead, Table.canonical_setD]
theorem State.canonical_setWait (a : Nat) (v : WaitKind) : (s.setWait a v).canonical = true := by
  simp_all [State.canonical_iff, State.setWait, Table.canonical_setD]
theorem State.canonical_setNotice (k : NoticeKind) (v : Notice) : (s.setNotice k v).canonical = true := by
  simp_all [State.canonical_iff, State.setNotice, Table.canonical_setD]

end Writes

end Sys2Proof.Machine
end

section
/-! PROOFS. The law of O58 read record by record, and the changes that it does not see: those that leave every lane's
target, every lot's terms and every accepted chest's recorded net. -/

namespace Sys2Proof.Machine

/-! ## Lanes counted by number -/

/-- In a sorted table whose numbers are lane numbers, the records with a property are as many as the lane numbers whose
record has it. -/
theorem Table.length_filter_lanes {α : Type} {m : Table α} (hs : m.sorted = true)
    (hn : ∀ n v, m.get? n = some v → 1 ≤ n ∧ n ≤ 8) (p : α → Bool) :
    (m.filter (fun e => p e.2)).length = (laneNumbers.filter (fun n => (m.get? n).any p)).length := by
  have keys : ∀ m : Table α, m.sorted = true → (m.map Prod.fst).Nodup := by
    intro m hm
    induction m with
    | nil => exact List.nodup_nil
    | cons e m ih =>
      obtain ⟨hlt, hm⟩ := (Table.sorted_cons e.1 e.2 m).mp hm
      refine List.nodup_cons.mpr ⟨fun he => ?_, ih hm⟩
      obtain ⟨x, hx, hxe⟩ := List.mem_map.mp he
      exact absurd (hlt x hx) (by omega)
  have hperm : ((m.filter (fun e => p e.2)).map Prod.fst).Perm (laneNumbers.filter (fun n => (m.get? n).any p)) := by
    refine (List.perm_ext_iff_of_nodup (keys _ (Table.sorted_filter _ hs)) (laneNumbers_nodup.filter _)).mpr fun n => ?_
    simp only [List.mem_map, List.mem_filter, mem_laneNumbers, Option.any_eq_true]
    constructor
    · rintro ⟨⟨i, v⟩, ⟨hm, hp⟩, rfl⟩
      have hg := Table.get?_of_mem hs hm
      exact ⟨hn _ _ hg, v, hg, hp⟩
    · rintro ⟨-, v, hg, hp⟩
      exact ⟨(n, v), ⟨Table.get?_mem hg, hp⟩, rfl⟩
  rw [← hperm.length_eq, List.length_map]

theorem State.laneIs_eq_any (s : State) (n : Nat) (p : Lane → Bool) : s.laneIs n p = (s.lane? n).any p := by
  unfold State.laneIs; cases s.lane? n <;> rfl

theorem State.length_lanes_feeding {s : State} (hc : s.canonical = true)
    (hn : ∀ n l, s.lane? n = some l → 1 ≤ n ∧ n ≤ 8) (k : Nat) :
    (s.lanes.filter (fun e => e.2.feeds k)).length = (s.feeders k).length := by
  obtain ⟨-, -, -, hs, -⟩ := s.canonical_iff.mp hc
  rw [Table.length_filter_lanes hs hn (fun l => l.feeds k)]
  simp only [State.feeders, State.laneIs_eq_any, State.lane?]

theorem State.mem_feeders {s : State} {k n : Nat} :
    n ∈ s.feeders k ↔ (1 ≤ n ∧ n ≤ 8) ∧ ∃ l, s.lane? n = some l ∧ l.feeds k = true := by
  simp only [State.feeders, List.mem_filter, mem_laneNumbers, State.laneIs_eq_any, Option.any_eq_true]

theorem Lane.feeds_iff {l : Lane} {k : Nat} : l.feeds k = true ↔ ∃ a, l.target = .lot k a := by
  unfold Lane.feeds
  cases l.target with
  | hold => simp
  | lot j a => simp

/-! ## What the law reads of a record -/

/-- The target of a mapped lane. -/
def State.target? (s : State) (n : Nat) : Option LaneTarget := (s.lane? n).map Lane.target

/-- The terms of a lot that the law names: D, r, U, the mapped-lane count, and whether it is PACKING. -/
def Lot.terms (l : Lot) : Nat × Nat × Nat × Nat × Bool :=
  (l.declNet, l.step, l.margin, l.mappedLanes, l.state == .packing)

/-- The lot and the recorded net of an accepted chest. -/
def Chest.booked (c : Chest) : Option (Nat × Option Nat) :=
  match c.place with
  | .accepted k _ _ => some (k, c.recNet)
  | _ => none

/-- The lot and the recorded net of the chest in a record, if it is an accepted one. -/
def State.booked (s : State) (id : Nat) : Option (Nat × Option Nat) := (s.chest? id).bind Chest.booked

/-- A lot with these terms, fed by `n` lanes, counts them, is PACKING if there are any, and has a D that is a multiple of
its r. -/
def Lot.sound (l : Lot) (n : Nat) : Prop :=
  l.mappedLanes = n ∧ (n ≠ 0 → l.state = .packing) ∧ 0 < l.step ∧ l.step ∣ l.declNet

/-- A recorded net lies between the lot's D and D + U and is a multiple of its r. -/
def Lot.bands (l : Lot) (o : Option Nat) : Prop :=
  ∃ x, o = some x ∧ l.declNet ≤ x ∧ x ≤ l.declNet + l.margin ∧ l.step ∣ x

theorem Chest.booked_iff {c : Chest} {k : Nat} {o : Option Nat} :
    c.booked = some (k, o) ↔ (∃ n b, c.place = .accepted k n b) ∧ c.recNet = o := by
  unfold Chest.booked
  cases hp : c.place with
  | tentative j => simp
  | held r j => simp
  | accepted j n b => simp

/-- The law of O58 read by record number. -/
theorem State.netsInBand_iff (s : State) : s.netsInBand ↔
    s.canonical = true ∧ (∀ n, s.target? n ≠ none → 1 ≤ n ∧ n ≤ 8) ∧
    (∀ n k a, s.target? n = some (.lot k a) → s.lot? k ≠ none) ∧
    (∀ k l, s.lot? k = some l → l.sound (s.feeders k).length) ∧
    ∀ id k o, s.booked id = some (k, o) → ∃ l, s.lot? k = some l ∧ l.bands o := by
  have hnum : (∀ n, s.target? n ≠ none → 1 ≤ n ∧ n ≤ 8) ↔ ∀ n l, s.lane? n = some l → 1 ≤ n ∧ n ≤ 8 := by
    simp only [State.target?, ne_eq, Option.map_eq_none_iff]
    exact forall_congr' fun n => by cases s.lane? n <;> simp
  have hfed : (∀ n k a, s.target? n = some (.lot k a) → s.lot? k ≠ none) ↔
      ∀ n l k a, s.lane? n = some l → l.target = .lot k a → (s.lot? k).isSome := by
    simp only [State.target?, Option.map_eq_some_iff, Option.isSome_iff_ne_none]
    exact ⟨fun h n l k a hl ht => h n k a ⟨l, hl, ht⟩, fun h n k a ⟨l, hl, ht⟩ => h n l k a hl ht⟩
  have hband : (∀ id k o, s.booked id = some (k, o) → ∃ l, s.lot? k = some l ∧ l.bands o) ↔
      ∀ id c k n b, s.chest? id = some c → c.place = .accepted k n b →
        ∃ l x, s.lot? k = some l ∧ c.recNet = some x ∧ l.declNet ≤ x ∧ x ≤ l.declNet + l.margin ∧ l.step ∣ x := by
    simp only [State.booked, Option.bind_eq_some_iff, Chest.booked_iff, Lot.bands]
    constructor
    · intro h id c k n b hc hp
      obtain ⟨l, hl, x, hx⟩ := h id k _ ⟨c, hc, ⟨n, b, hp⟩, rfl⟩
      exact ⟨l, x, hl, hx⟩
    · rintro h id k _ ⟨c, hc, ⟨n, b, hp⟩, rfl⟩
      obtain ⟨l, x, hl, hx⟩ := h id c k n b hc hp
      exact ⟨l, hl, x, hx⟩
  rw [hnum, hfed, hband]
  unfold State.netsInBand State.lanesCounted Lot.sound
  constructor
  · rintro ⟨⟨hc, hn, hf, hl⟩, hs, hb⟩
    refine ⟨hc, hn, hf, fun k l h => ?_, hb⟩
    obtain ⟨hcount, hpack⟩ := hl k l h
    rw [State.length_lanes_feeding hc hn] at hcount
    exact ⟨hcount, hcount ▸ hpack, hs k l h⟩
  · rintro ⟨hc, hn, hf, hl, hb⟩
    refine ⟨⟨hc, hn, hf, fun k l h => ?_⟩, fun k l h => ?_, hb⟩
    · obtain ⟨hcount, hpack, -⟩ := hl k l h
      rw [State.length_lanes_feeding hc hn]
      exact ⟨hcount, hcount ▸ hpack⟩
    · obtain ⟨-, -, hstep⟩ := hl k l h
      exact hstep

/-! ## Changes that the law does not see -/

/-- From `s` to `t` every lane keeps its target and every lot its terms, no chest is accepted anew or gets another
recorded net, and canonical tables stay so. -/
structure State.SameTerms (s t : State) : Prop where
  canonical : s.canonical = true → t.canonical = true
  target : ∀ n, t.target? n = s.target? n
  terms : ∀ k, (t.lot? k).map Lot.terms = (s.lot? k).map Lot.terms
  booked : ∀ id, t.booked id = none ∨ t.booked id = s.booked id

theorem State.feeders_congr {s t : State} (h : ∀ n, t.target? n = s.target? n) (k : Nat) :
    t.feeders k = s.feeders k := by
  have feeds (s : State) (n : Nat) : s.laneIs n (fun l => l.feeds k) =
      match s.target? n with
      | some (.lot j _) => j == k
      | _ => false := by
    unfold State.laneIs State.target? Lane.feeds
    cases s.lane? n with
    | none => rfl
    | some l => cases h : l.target <;> simp [h]
  simp only [State.feeders, feeds, h]

/-- The law is kept by every change that it does not see. -/
theorem State.SameTerms.netsInBand {s t : State} (h : s.SameTerms t) (hs : s.netsInBand) : t.netsInBand := by
  rw [State.netsInBand_iff] at hs ⊢
  obtain ⟨hc, hn, hf, hl, hb⟩ := hs
  have lot_back {k : Nat} {l : Lot} (hk : t.lot? k = some l) : ∃ l', s.lot? k = some l' ∧ l'.terms = l.terms := by
    have := h.terms k
    rw [hk] at this
    exact Option.map_eq_some_iff.mp this.symm
  refine ⟨h.canonical hc, fun n => by rw [h.target]; exact hn n, fun n k a ht hk => ?_, fun k l hk => ?_,
    fun id k o ho => ?_⟩
  · have := h.terms k
    rw [hk] at this
    exact hf n k a (h.target n ▸ ht) (Option.map_eq_none_iff.mp this.symm)
  · obtain ⟨l', hl', he⟩ := lot_back hk
    have hsound := hl k l' hl'
    simp only [Lot.terms, Prod.mk.injEq] at he
    obtain ⟨hD, hr, -, hm, hp⟩ := he
    rw [State.feeders_congr h.target]
    unfold Lot.sound at hsound ⊢
    rw [← hD, ← hr, ← hm]
    refine ⟨hsound.1, fun hne => ?_, hsound.2.2⟩
    have := hsound.2.1 hne
    rw [this] at hp
    exact beq_iff_eq.mp hp.symm
  · have hso : s.booked id = some (k, o) := by
      rcases h.booked id with hnone | hsame
      · rw [hnone] at ho; cases ho
      · exact hsame ▸ ho
    obtain ⟨l, hk, hband⟩ := hb id k o hso
    have := h.terms k
    rw [hk] at this
    obtain ⟨l', hl', he⟩ := Option.map_eq_some_iff.mp this
    simp only [Lot.terms, Prod.mk.injEq] at he
    obtain ⟨hD, hr, hU, -, -⟩ := he
    refine ⟨l', hl', ?_⟩
    unfold Lot.bands at hband ⊢
    rw [hD, hr, hU]
    exact hband

namespace State.SameTerms

theorem refl (s : State) : s.SameTerms s := ⟨id, fun _ => rfl, fun _ => rfl, fun _ => .inr rfl⟩

theorem trans {s t u : State} (h : s.SameTerms t) (h' : t.SameTerms u) : s.SameTerms u where
  canonical := h'.canonical ∘ h.canonical
  target n := (h'.target n).trans (h.target n)
  terms k := (h'.terms k).trans (h.terms k)
  booked id := by
    rcases h'.booked id with hn | he
    · exact .inl hn
    · rw [he]; exact h.booked id

/-- A change that leaves lots, lanes and chests alone. -/
theorem frame {s t u : State} (h : s.SameTerms t) (hl : u.lots = t.lots) (hn : u.lanes = t.lanes)
    (hc : u.chests = t.chests) (hcan : t.canonical = true → u.canonical = true) : s.SameTerms u := by
  refine h.trans ⟨hcan, fun n => ?_, fun k => ?_, fun id => .inr ?_⟩
  · simp only [State.target?, State.lane?, hn]
  · simp only [State.lot?, hl]
  · simp only [State.booked, State.chest?, hc]

section Writes

variable {s t : State} (h : s.SameTerms t)
include h

theorem setBulk (k : Nat) (o : Option Bulk) : s.SameTerms (t.setBulk k o) :=
  h.frame rfl rfl rfl (State.canonical_setBulk · k o)
theorem modBulk (k : Nat) (f : Bulk → Bulk) : s.SameTerms (t.modBulk k f) :=
  h.frame rfl rfl rfl (State.canonical_modBulk · k f)
theorem setClass (k : Nat) (o : Option TareClass) : s.SameTerms (t.setClass k o) :=
  h.frame rfl rfl rfl (State.canonical_setClass · k o)
theorem setStation (a : Nat) (v : Station) : s.SameTerms (t.setStation a v) :=
  h.frame rfl rfl rfl (State.canonical_setStation · a v)
theorem modStation (a : Nat) (f : Station → Station) : s.SameTerms (t.modStation a f) := h.setStation a _
theorem setVerification (a : Nat) (v : Verification) : s.SameTerms (t.setVerification a v) :=
  h.frame rfl rfl rfl (State.canonical_setVerification · a v)
theorem setHead (a : Nat) (v : Head) : s.SameTerms (t.setHead a v) :=
  h.frame rfl rfl rfl (State.canonical_setHead · a v)
theorem modHead (a : Nat) (f : Head → Head) : s.SameTerms (t.modHead a f) := h.setHead a _
theorem setWait (a : Nat) (v : WaitKind) : s.SameTerms (t.setWait a v) :=
  h.frame rfl rfl rfl (State.canonical_setWait · a v)
theorem setNotice (k : NoticeKind) (v : Notice) : s.SameTerms (t.setNotice k v) :=
  h.frame rfl rfl rfl (State.canonical_setNotice · k v)
theorem raise (k : NoticeKind) (o : Option Nat) : s.SameTerms (t.raise k o) := h.setNotice k _
theorem setPool (p : List Nat) : s.SameTerms (t.setPool p) := h.frame rfl rfl rfl id
theorem setBuffer (b : Buffer) : s.SameTerms (t.setBuffer b) := h.frame rfl rfl rfl id
theorem respond (c : Byte) (r : Reply) : s.SameTerms (t.respond c r) := h.setBuffer _

/-- A lot's record is rewritten with its terms kept. -/
theorem modLot {k : Nat} {f : Lot → Lot}
    (hf : ∀ l, t.lot? k = some l → (f l).terms = l.terms := by intro _ _; rfl) :
    s.SameTerms (t.modLot k f) := by
  refine h.trans ⟨(State.canonical_modLot · k f), fun n => rfl, fun j => ?_, fun id => .inr rfl⟩
  rw [State.modLot_lot?]
  by_cases hj : j = k
  · subst hj
    rw [if_pos rfl]
    cases hl : t.lot? j with
    | none => rfl
    | some l => exact congrArg some (hf l hl)
  · rw [if_neg hj]

/-- A mapped lane's record is rewritten with its target kept. -/
theorem setLane {n : Nat} {l l' : Lane} (hl : t.lane? n = some l) (hf : l'.target = l.target := by rfl) :
    s.SameTerms (t.setLane n (some l')) := by
  refine h.trans ⟨(State.canonical_setLane · n _), fun m => ?_, fun k => rfl, fun id => .inr rfl⟩
  unfold State.target?
  rw [State.setLane_lane?]
  by_cases hm : m = n
  · subst hm; rw [if_pos rfl, hl]; exact congrArg some hf
  · rw [if_neg hm]

theorem modLane {n : Nat} {f : Lane → Lane} (hf : ∀ l, (f l).target = l.target := by intro _; rfl) :
    s.SameTerms (t.modLane n f) := by
  refine h.trans ⟨(State.canonical_modLane · n f), fun m => ?_, fun k => rfl, fun id => .inr rfl⟩
  unfold State.target?
  rw [State.modLane_lane?]
  by_cases hm : m = n
  · subst hm
    rw [if_pos rfl, Option.map_map]
    exact congrArg (Option.map · _) (funext hf)
  · rw [if_neg hm]

/-- A chest's record is freed, or written with a chest that is not an accepted one. -/
theorem setChest {id : Nat} {o : Option Chest} (ho : o.bind Chest.booked = none := by rfl) :
    s.SameTerms (t.setChest id o) := by
  refine h.trans ⟨(State.canonical_setChest · id o), fun m => rfl, fun k => rfl, fun j => ?_⟩
  unfold State.booked
  rw [State.setChest_chest?]
  by_cases hj : j = id
  · rw [if_pos hj]; exact .inl ho
  · rw [if_neg hj]; exact .inr rfl

/-- A chest's record is rewritten with its place and recorded net kept. -/
theorem modChest {id : Nat} {f : Chest → Chest} (hf : ∀ c, (f c).booked = c.booked := by intro _; rfl) :
    s.SameTerms (t.modChest id f) := by
  refine h.trans ⟨(State.canonical_modChest · id f), fun m => rfl, fun k => rfl, fun j => .inr ?_⟩
  unfold State.booked
  rw [State.modChest_chest?]
  by_cases hj : j = id
  · subst hj
    rw [if_pos rfl]
    cases hc : t.chest? j with
    | none => rfl
    | some c => exact hf c
  · rw [if_neg hj]

/-- Steps that the law does not see, one after the other. -/
theorem foldl {ι : Type} {op : State → ι → State} (hop : ∀ (t : State) (i : ι), t.SameTerms (op t i)) (l : List ι) :
    s.SameTerms (l.foldl op t) :=
  foldl_keeps (s.SameTerms ·) op l (fun u i _ hu => hu.trans (hop u i)) t h

end Writes

end State.SameTerms

end Sys2Proof.Machine
end

section
/-! PROOFS. The shared updates, and those of the link, the heads and the starts, leave what the law of O58 reads. -/

namespace Sys2Proof.Machine

namespace State.SameTerms

variable {s t : State} (h : s.SameTerms t)
include h

/-! ## Calls, lanes and notices -/

theorem placeAnswer (a : Nat) (x : Answer) : s.SameTerms (t.placeAnswer a x) := h.modStation a _
theorem placeResult (a : Nat) (x : Answer) : s.SameTerms (t.placeResult a x) := h.modStation a _
theorem clearSlot (a : Nat) : s.SameTerms (t.clearSlot a) := (h.modStation a _).setWait a _
theorem answerCall (a : Nat) (c : AnswerCode) (v : Nat) : s.SameTerms (t.answerCall a c v) :=
  (h.clearSlot a).placeResult a _

theorem raiseIf (p : Prop) [Decidable p] (k : NoticeKind) (o : Option Nat) :
    s.SameTerms (if p then t.raise k o else t) := by
  split
  · exact h.raise k o
  · exact h

theorem lastSource (k : NoticeKind) (l : List Nat) : s.SameTerms (t.lastSource k l) := by
  unfold State.lastSource
  split
  · exact h
  · exact h.setNotice k _

theorem queueNotices (a b c : Nat) : s.SameTerms (t.queueNotices a b c) := (h.raiseIf _ _ _).raiseIf _ _ _

theorem holdCause (n : Nat) (r : LaneHold) (auto : Bool) : s.SameTerms (t.holdCause n r auto) := by
  unfold State.holdCause
  split
  · exact h
  · next l hl =>
    split
    · split
      · exact h.setLane hl
      · exact (h.setLane hl).raiseIf _ _ _
    · exact h

theorem settleLane (n : Nat) : s.SameTerms (t.settleLane n) := by
  unfold State.settleLane
  split
  · exact h
  · next l hl =>
    split
    · split
      · exact h
      · exact (h.setLane hl).raise _ _
    · exact h

theorem fireOneShot (n : Nat) : s.SameTerms (t.fireOneShot n) := by
  unfold State.fireOneShot
  split
  · exact h.modLane.holdCause n _ _
  · exact h

/-! ## Lots and chests -/

theorem evalComplete (k : Nat) : s.SameTerms (t.evalComplete k) := by
  cases hl : t.lot? k with
  | none => rw [State.evalComplete_none hl]; exact h
  | some l =>
    by_cases hc : l.state = .finishing ∧ l.outstanding = 0 ∧ t.allMarked k
    · rw [(State.evalComplete_some hl).1 hc]
      refine (h.modLot fun l' hl' => ?_).raise _ _
      obtain rfl : l = l' := Option.some.inj (hl.symm.trans hl')
      simp [Lot.terms, hc.1]
    · rw [(State.evalComplete_some hl).2 hc]; exact h

theorem removeLast (id : Nat) : s.SameTerms (t.removeLast id) := by
  unfold State.removeLast
  dsimp only
  split
  · refine (h.modLot fun l _ => ?_).modBulk _ _
    by_cases hf : l.state = .finishing <;> simp [Lot.terms, Lot.remove, hf]
  · exact h

theorem holdChest (id : Nat) (c : Chest) (r : HoldReason) (o : Option Nat) : s.SameTerms (t.holdChest id c r o) :=
  h.setChest.setPool _

theorem leavePool (id : Nat) : s.SameTerms (t.leavePool id) := h.setPool _

theorem freeChest (id : Nat) : s.SameTerms (t.freeChest id) := h.setChest.leavePool id

theorem settleTentative (n id : Nat) (r : HoldReason) : s.SameTerms (t.settleTentative n id r) := by
  unfold State.settleTentative
  dsimp only
  refine modLane ?_
  have settled (o : Option Nat) :
      s.SameTerms (if t.poolRoom then t.holdChest id (t.chestD id) r o else t.freeChest id) := by
    split
    · exact h.holdChest id _ r o
    · exact h.freeChest id
  split
  · exact (settled _).modLot
  · exact settled _

/-! ## Mark queues -/

theorem appendJob (a id : Nat) (kind : JobKind) : s.SameTerms (t.appendJob a id kind) := by
  have hq := (h.modHead a fun v => { v with
      queue := v.queue ++ [{ chest := id, kind := kind }]
      state := if v.state = .idle then .ready else v.state }).modChest (id := id)
    (f := fun c => { c with mark := .queued, job := some kind, markHead := some a })
  unfold State.appendJob
  dsimp only
  split
  · exact hq.modLot
  · exact hq

theorem settleMark (id : Nat) (m : MarkStatus) : s.SameTerms (t.settleMark id m) := by
  have hm := h.modChest (id := id) (f := fun c => { c with mark := m, job := none })
  unfold State.settleMark
  dsimp only
  split
  · next k _ _ _ => exact hm.modLot.evalComplete k
  · exact hm

theorem cancelJobs (a : Nat) (out : Job → Bool) : s.SameTerms (t.cancelJobs a out) := by
  unfold State.cancelJobs
  exact ((h.setHead a _).foldl (fun u (j : Job) => (refl u).settleMark j.chest _) _).queueNotices _ _ _

theorem frontLeaves (a : Nat) (m : MarkStatus) : s.SameTerms (t.frontLeaves a m) := by
  unfold State.frontLeaves
  split
  · exact h
  · exact (h.modHead a _).settleMark _ m

theorem cutMark (a : Nat) (r : PauseReason) : s.SameTerms (t.cutMark a r) := by
  unfold State.cutMark
  dsimp only
  split
  · split
    · exact (h.setHead a _).modChest.raise _ _
    · exact (h.setHead a _).raise _ _
  · exact h

/-! ## Bulks -/

theorem countCharge (k i m g : Nat) : s.SameTerms (t.countCharge k i m g) := (h.modBulk k _).raiseIf _ _ _

theorem answerCharge (a q : Nat) : s.SameTerms (t.answerCharge a q) := by
  unfold State.answerCharge
  split
  · exact h.answerCall a _ _
  · split
    · exact h.answerCall a _ _
    · exact h.answerCall a _ _
    · dsimp only
      split
      · exact h.answerCall a _ _
      · exact ((h.modBulk _ _).clearSlot a).placeResult a _

theorem answerDone (a m : Nat) : s.SameTerms (t.answerDone a m) := by
  unfold State.answerDone
  split
  · exact h.answerCall a _ _
  · split
    · exact h.answerCall a _ _
    · exact (h.countCharge _ _ _ _).answerCall a _ _
    · exact (h.countCharge _ _ _ _).answerCall a _ _

/-! ## Replies -/

theorem markDone (a : Nat) : s.SameTerms (t.markDone a) :=
  (((h.frontLeaves a _).modHead a _).raiseIf _ _ _).queueNotices _ _ _

theorem markFault (a : Nat) (m : MarkStatus) (code : FaultCode) : s.SameTerms (t.markFault a m code) :=
  (((h.frontLeaves a m).modHead a _).raise _ _).queueNotices _ _ _

/-! ## Force hold -/

theorem forceSettle (n : Nat) : s.SameTerms (t.forceSettle n) := by
  have answered {u : State} (hu : s.SameTerms u) (a : Nat) :
      s.SameTerms (if u.wait a = .none then u else u.answerCall a .laneHeld 0) := by
    split
    · exact hu
    · exact hu.answerCall a _ _
  unfold State.forceSettle
  dsimp only
  split
  · exact answered (h.settleTentative n _ _) _
  · exact answered h _

theorem forceCancel (n : Nat) : s.SameTerms (t.forceCancel n) := by
  unfold State.forceCancel
  exact ((h.foldl (fun u a => (refl u).cancelJobs a _) _).lastSource _ _).lastSource _ _

theorem forceHold (n : Nat) : s.SameTerms (t.forceHold n) := by
  unfold State.forceHold
  exact ((h.forceSettle n).forceCancel n).modLane

/-! ## The link -/

theorem elapse : s.SameTerms t.elapse := by
  have ticked : s.SameTerms { t with purgeTimer := t.purgeTimer.map (· - Config.cycleMs) } := h.frame rfl rfl rfl id
  unfold State.elapse
  exact ticked.foldl (fun u a => ((refl u).modHead a _).setVerification a _) _

theorem turnSlots : s.SameTerms t.turnSlots := by
  unfold State.turnSlots
  exact h.foldl (fun u a => (refl u).modStation a _) _

theorem outbound (a : Nat) : s.SameTerms (t.outbound a).1 := by
  unfold State.outbound
  dsimp only
  split
  · exact h.setStation a _
  · split
    · exact (h.setStation a _).setVerification a _
    · split
      · next m _ => exact h.modHead a fun v => v.sendNext m (t.station a).printMs
      · split
        · exact (h.modHead a _).modChest
        · exact h

theorem sendSlots (l : List Nat) : s.SameTerms (t.sendSlots l).1 := by
  induction l generalizing t with
  | nil => exact h
  | cons a l ih => exact ih (h.outbound a)

theorem linkCycle : s.SameTerms (linkCycle t) := by
  unfold Machine.linkCycle
  split
  · exact h
  · have elapsed : s.SameTerms (if t.cycle.isSome then t.elapse else t) := by
      split
      · exact h.elapse
      · exact h
    have sent := elapsed.turnSlots.sendSlots addresses
    dsimp only
    generalize State.sendSlots _ addresses = r at sent ⊢
    exact sent.frame rfl rfl rfl id

theorem arrive (a : Nat) (c : Call) : s.SameTerms (t.arrive a c) := by
  unfold State.arrive
  dsimp only
  split
  · exact h.placeAnswer a _
  · split
    · exact (h.setStation a _).placeAnswer a _
    · exact (h.setStation a _).placeAnswer a _

theorem judge (a : Nat) (kind : StationKind) (b c : Nat) : s.SameTerms (t.judge a kind b c) := by
  unfold State.judge
  dsimp only
  split
  · exact (h.setStation a _).setVerification a _
  · exact (h.setStation a _).raise _ _

theorem takePage (a : Nat) (page : Page) : s.SameTerms (t.takePage a page) := by
  unfold State.takePage
  dsimp only
  split
  · exact h.setStation a _
  · split
    · exact h.setStation a _
    · exact h.setStation a _
  · split
    · exact (h.setStation a _).judge a _ _ _
    · exact h.setStation a _

theorem admitWord (a : Nat) (i : Inbound) : s.SameTerms (t.admitWord a i) := by
  unfold State.admitWord
  dsimp only
  split
  · split <;> exact h.setStation a _
  · split
    · exact h.setStation a _
    · exact h.takePage a _
    · exact h.setStation a _
  · split
    · exact h.setStation a _
    · exact (h.setStation a _).arrive a _
    · exact h.setStation a _
  · exact (h.setStation a _).placeAnswer a _
  · exact h.setStation a _

theorem judgeSlot (a : Nat) (w : Option LinkWord) : s.SameTerms (t.judgeSlot a w) := by
  unfold State.judgeSlot
  dsimp only
  split
  · exact h.setStation a _
  · split
    · exact h.setStation a _
    · split
      · exact h.setStation a _
      · exact h.admitWord a _

theorem loseBin (a : Nat) : s.SameTerms (t.loseBin a) := by
  unfold State.loseBin
  split
  · exact h
  · split
    · exact (h.modBulk _ _).raise _ _
    · exact h

theorem loseLanes (a : Nat) : s.SameTerms (t.loseLanes a) := by
  refine (h.foldl (fun u n => ?_) _).lastSource _ _
  split
  · exact refl u
  · split
    · exact ((refl u).holdCause n _ _).settleLane n
    · split
      · split
        · exact (refl u).holdCause n _ _
        · exact refl u
      · exact refl u

theorem lose (a : Nat) : s.SameTerms (t.lose a) :=
  ((((((h.modStation a _).raise _ _).setWait a _).loseBin a).cutMark a _).setVerification a _).loseLanes a

/-! ## A warm restart -/

theorem restartLane (n : Nat) : s.SameTerms (t.restartLane n) := by
  unfold State.restartLane
  split
  · exact h
  · dsimp only
    refine modLane ?_
    split
    · exact h.settleTentative n _ _
    · exact h

theorem restartBulks : s.SameTerms t.restartBulks := by
  have mapped : s.SameTerms { t with bulks := t.bulks.mapVals (fun _ b => b.restarted) } := by
    refine h.frame rfl rfl rfl fun hc => ?_
    simp_all [State.canonical_iff, Table.sorted_mapVals]
  exact mapped.foldl (fun u e => (refl u).raise _ _) _

theorem restartHead (a : Nat) : s.SameTerms (t.restartHead a) := (h.cutMark a _).modHead a _

theorem resolved : s.SameTerms t.resolved := by
  have lanes := h.foldl (fun u n => (refl u).restartLane n) laneNumbers
  have heads := lanes.restartBulks.foldl (fun u a => (refl u).restartHead a) addresses
  unfold State.resolved
  dsimp only
  generalize addresses.foldl State.restartHead _ = u at heads ⊢
  have cleared : s.SameTerms { u with waits := [], cycle := none, linkOut := [] } := by
    refine heads.frame rfl rfl rfl fun hc => ?_
    obtain ⟨hlo, hcl, hb, hla, hch, hst, hv, hh, -, hn⟩ := u.canonical_iff.mp hc
    exact State.canonical_iff _ |>.mpr ⟨hlo, hcl, hb, hla, hch, hst, hv, hh, rfl, hn⟩
  exact cleared.foldl (fun u a => ((refl u).setVerification a _).setStation a _) _

/-! ## Verification -/

theorem compareTest (a r mass : Nat) : s.SameTerms (t.compareTest a r mass) := by
  have judged (p : Bool) (v : Verification) : s.SameTerms
      (if p then t.setVerification a v else (t.setVerification a v).raise .scaleSuspended (some a)) := by
    split
    · exact h.setVerification a v
    · exact (h.setVerification a v).raise _ _
  unfold State.compareTest
  dsimp only
  exact modStation (answerCall (judged _ _) a _ _) a _

theorem takeTest (a : Nat) (r : Reading) : s.SameTerms (t.takeTest a r) := by
  unfold State.takeTest
  split
  · split
    · exact h.answerCall a _ _
    · exact h.compareTest a _ _
  · exact h.answerCall a _ _

theorem graceOver (a : Nat) : s.SameTerms (t.graceOver a) := by
  unfold State.graceOver
  dsimp only
  split
  · exact h.setVerification a _
  · have suspended := ((h.setVerification a { t.verification a with state := .at .suspended }).raise
      .scaleSuspended (some a)).setWait a .none
    split
    · exact (suspended.holdCause _ _ _).settleLane _
    · exact suspended

/-! ## Calls to the Weighing Unit that accept no chest -/

theorem takeTare (a : Nat) (r : Reading) : s.SameTerms (t.takeTare a r) := by
  unfold State.takeTare
  dsimp only
  split
  · exact (h.answerCall a _ _).modLane
  · exact h.answerCall a _ _

theorem leaveWaiting (a n : Nat) (kind : WaitKind) : s.SameTerms (t.leaveWaiting a n kind) := by
  unfold State.leaveWaiting
  dsimp only
  split
  · exact ((h.setWait a kind).holdCause n _ _).raise _ _
  · exact h.setWait a kind

theorem chestFor (w : Weighed) (chest : Option Nat) (fresh : Nat) : s.SameTerms (t.chestFor w chest fresh).2.2 := by
  unfold State.chestFor
  split
  · exact h.modLane
  · exact h.modLane

end State.SameTerms

end Sys2Proof.Machine
end

section
/-! PROOFS. The law of O58 under the changes that it does see: lanes mapped and unmapped, lots opened, finished and
retired, chests accepted, and all records emptied. -/

namespace Sys2Proof.Machine

/-! ## Feeders, by the lanes' targets -/

theorem State.mem_feeders_iff {s : State} {k n : Nat} :
    n ∈ s.feeders k ↔ (1 ≤ n ∧ n ≤ 8) ∧ ∃ a, s.target? n = some (.lot k a) := by
  simp only [State.mem_feeders, State.target?, Option.map_eq_some_iff, Lane.feeds_iff]
  exact and_congr_right fun _ => ⟨fun ⟨l, hl, a, ha⟩ => ⟨a, l, hl, ha⟩, fun ⟨a, l, hl, ha⟩ => ⟨l, hl, a, ha⟩⟩

theorem State.nodup_feeders (s : State) (k : Nat) : (s.feeders k).Nodup := laneNumbers_nodup.filter _

/-- One lane more feeds the lot. -/
theorem State.length_feeders_succ {s t : State} {k n : Nat} (ht : n ∈ t.feeders k) (hs : n ∉ s.feeders k)
    (h : ∀ m, m ≠ n → t.target? m = s.target? m) : (t.feeders k).length = (s.feeders k).length + 1 := by
  have hperm : (t.feeders k).Perm (n :: s.feeders k) := by
    refine (List.perm_ext_iff_of_nodup (t.nodup_feeders k) (List.nodup_cons.mpr ⟨hs, s.nodup_feeders k⟩)).mpr fun m => ?_
    by_cases hm : m = n
    · subst hm; simp [ht]
    · simp only [List.mem_cons, hm, false_or, State.mem_feeders_iff, h m hm]
  exact hperm.length_eq

/-- As many lanes feed a lot when every lane that feeds it did so before, and the other way round. -/
theorem State.length_feeders_eq {s t : State} {k : Nat}
    (h : ∀ n a, t.target? n = some (.lot k a) ↔ s.target? n = some (.lot k a)) :
    (t.feeders k).length = (s.feeders k).length := by
  refine ((List.perm_ext_iff_of_nodup (t.nodup_feeders k) (s.nodup_feeders k)).mpr fun n => ?_).length_eq
  simp only [State.mem_feeders_iff, h]

theorem State.target?_eq {s : State} {n : Nat} {l : Lane} (h : s.lane? n = some l) : s.target? n = some l.target := by
  rw [State.target?, h]; rfl

/-! ## Lanes mapped and unmapped (R73, R74) -/

theorem Lot.sound_mapped {l : Lot} {n : Nat} (h : l.sound n) (ht : l.takesChests = true) : l.mapped.sound (n + 1) := by
  obtain ⟨hm, hp, hr, hd⟩ := h
  refine ⟨congrArg (· + 1) hm, fun _ => ?_, hr, hd⟩
  simp only [Lot.takesChests, Bool.or_eq_true, beq_iff_eq] at ht
  unfold Lot.mapped
  dsimp only
  split
  · rfl
  · next hno =>
    rcases ht with ho | hpk
    · exact hp fun h0 => hno ⟨ho, hm.trans h0⟩
    · exact hpk

theorem Lot.sound_unmapped {l : Lot} {n : Nat} (h : l.sound (n + 1)) : l.unmapped.sound n := by
  obtain ⟨hm, hp, hr, hd⟩ := h
  refine ⟨by simp [Lot.unmapped, hm], fun hn => ?_, hr, hd⟩
  simp [Lot.unmapped, hp n.succ_ne_zero, hm, hn]

/-- A lane that is not mapped is mapped to HOLD. -/
theorem State.netsInBand_mapHold {s : State} (hs : s.netsInBand) {n : Nat} {l : Lane} (hn : 1 ≤ n ∧ n ≤ 8)
    (hfree : s.lane? n = none) (hl : l.target = .hold) : (s.setLane n (some l)).netsInBand := by
  rw [State.netsInBand_iff] at hs ⊢
  obtain ⟨hc, hnum, hfed, hlot, hband⟩ := hs
  have target (m : Nat) : (s.setLane n (some l)).target? m = if m = n then some .hold else s.target? m := by
    unfold State.target?; rw [State.setLane_lane?]; split <;> simp [hl]
  have fed (k m a : Nat) : (s.setLane n (some l)).target? m = some (.lot k a) ↔ s.target? m = some (.lot k a) := by
    rw [target]
    split
    · next hm => subst hm; simp [State.target?, hfree]
    · rfl
  refine ⟨State.canonical_setLane hc n _, fun m hm => ?_, fun m k a hm => hfed m k a ((fed k m a).mp hm),
    fun k l' hk => ?_, hband⟩
  · rw [target] at hm
    split at hm
    · next he => exact he ▸ hn
    · exact hnum m hm
  · rw [State.length_feeders_eq (fed k)]; exact hlot k l' hk

/-- A lane that is not mapped is mapped to a lot that is OPEN or PACKING. -/
theorem State.netsInBand_mapLot {s : State} (hs : s.netsInBand) {n k a : Nat} {l : Lane} {lot : Lot}
    (hn : 1 ≤ n ∧ n ≤ 8) (hfree : s.lane? n = none) (hl : l.target = .lot k a) (hk : s.lot? k = some lot)
    (ht : lot.takesChests = true) : ((s.setLane n (some l)).modLot k Lot.mapped).netsInBand := by
  rw [State.netsInBand_iff] at hs ⊢
  obtain ⟨hc, hnum, hfed, hlot, hband⟩ := hs
  generalize hu : (s.setLane n (some l)).modLot k Lot.mapped = u
  have target (m : Nat) : u.target? m = if m = n then some (.lot k a) else s.target? m := by
    subst hu
    unfold State.target?; rw [State.modLot_laneOf, State.setLane_lane?]; split <;> simp [hl]
  have lot_eq (j : Nat) : u.lot? j = if j = k then some lot.mapped else s.lot? j := by
    subst hu
    rw [State.modLot_lot?, State.setLane_lotOf, hk]; rfl
  have other (j m b : Nat) (hj : j ≠ k) : u.target? m = some (.lot j b) ↔ s.target? m = some (.lot j b) := by
    rw [target]
    split
    · next hm => subst hm; simp [State.target?, hfree, hj.symm]
    · rfl
  refine ⟨hu ▸ State.canonical_modLot (State.canonical_setLane hc n _) k _, fun m hm => ?_, fun m j b hm => ?_,
    fun j l' hj => ?_, fun id j o ho => ?_⟩
  · rw [target] at hm
    split at hm
    · next he => exact he ▸ hn
    · exact hnum m hm
  · rw [lot_eq]
    by_cases hj : j = k
    · simp [hj]
    · rw [if_neg hj]; exact hfed m j b ((other j m b hj).mp hm)
  · rw [lot_eq] at hj
    by_cases he : j = k
    · subst he
      rw [if_pos rfl, Option.some.injEq] at hj
      rw [State.length_feeders_succ (s := s) (n := n) (State.mem_feeders_iff.mpr ⟨hn, a, by simp [target]⟩)
        (by simp [State.mem_feeders_iff, State.target?, hfree]) (fun m hm => by simp [target, hm]), ← hj]
      exact Lot.sound_mapped (hlot j lot hk) ht
    · rw [if_neg he] at hj
      rw [State.length_feeders_eq fun m b => other j m b he]
      exact hlot j l' hj
  · obtain ⟨l', hl', hb⟩ := hband id j o (by subst hu; exact ho)
    rw [lot_eq]
    by_cases he : j = k
    · subst he
      obtain rfl := Option.some.inj (hl'.symm.trans hk)
      exact ⟨_, if_pos rfl, hb⟩
    · exact ⟨l', by rw [if_neg he]; exact hl', hb⟩

/-- A lane is unmapped. -/
theorem State.netsInBand_unmapLane {s : State} (hs : s.netsInBand) (n : Nat) : (s.unmapLane n).netsInBand := by
  unfold State.unmapLane
  cases hl : s.lane? n with
  | none => exact hs
  | some l =>
    dsimp only
    have hsame : (s.setLane n none).SameTerms ((s.setLane n none).setWait l.scale .none) := (State.SameTerms.refl _).setWait _ _
    have hst : s.target? n = some l.target := State.target?_eq hl
    have target (m : Nat) : (s.setLane n none).target? m = if m = n then none else s.target? m := by
      unfold State.target?; rw [State.setLane_lane?]; split <;> simp
    rw [State.netsInBand_iff] at hs
    obtain ⟨hc, hnum, hfed, hlot, hband⟩ := hs
    cases ht : l.target with
    | hold =>
      refine hsame.netsInBand (State.netsInBand_iff _ |>.mpr
        ⟨State.canonical_setLane hc n _, fun m hm => hnum m ?_, fun m k a hm => hfed m k a ?_, fun k l' hk => ?_, hband⟩)
      · intro he; rw [target, he] at hm; simp at hm
      · rw [target] at hm
        split at hm
        · cases hm
        · exact hm
      · rw [State.length_feeders_eq (s := s) fun m b => ?_]
        · exact hlot k l' hk
        · rw [target]
          split
          · next hm => subst hm; simp [hst, ht]
          · rfl
    | lot k a =>
      dsimp only
      rw [ht] at hst
      obtain ⟨lot, hk⟩ := Option.ne_none_iff_exists'.mp (hfed n k a hst)
      generalize hu : ((s.setLane n none).setWait l.scale .none).modLot k Lot.unmapped = u
      have utarget (m : Nat) : u.target? m = if m = n then none else s.target? m := by
        subst hu; exact target m
      have lot_eq (j : Nat) : u.lot? j = if j = k then some lot.unmapped else s.lot? j := by
        subst hu
        rw [State.modLot_lot?, State.setWait_lotOf, State.setLane_lotOf, State.setWait_lotOf, State.setLane_lotOf, hk]
        rfl
      have other (j m b : Nat) (hj : j ≠ k) : u.target? m = some (.lot j b) ↔ s.target? m = some (.lot j b) := by
        rw [utarget]
        split
        · next hm => subst hm; simp [hst, hj.symm]
        · rfl
      refine State.netsInBand_iff _ |>.mpr ⟨hu ▸ State.canonical_modLot
        (State.canonical_setWait (State.canonical_setLane hc n _) _ _) k _, fun m hm => hnum m ?_, fun m j b hm => ?_,
        fun j l' hj => ?_, fun id j o ho => ?_⟩
      · intro he; rw [utarget, he] at hm; simp at hm
      · rw [lot_eq]
        by_cases hj : j = k
        · simp [hj]
        · rw [if_neg hj]; exact hfed m j b ((other j m b hj).mp hm)
      · rw [lot_eq] at hj
        by_cases he : j = k
        · subst he
          rw [if_pos rfl, Option.some.injEq] at hj
          have hsucc := State.length_feeders_succ (s := u) (t := s) (n := n) (k := j)
            (State.mem_feeders_iff.mpr ⟨hnum n (by simp [hst]), a, hst⟩)
            (by simp [State.mem_feeders_iff, utarget]) (fun m hm => by simp [utarget, hm])
          rw [← hj]
          exact Lot.sound_unmapped (hsucc ▸ hlot j lot hk)
        · rw [if_neg he] at hj
          rw [State.length_feeders_eq fun m b => other j m b he]
          exact hlot j l' hj
      · obtain ⟨l', hl', hb⟩ := hband id j o (by subst hu; exact ho)
        rw [lot_eq]
        by_cases he : j = k
        · subst he
          obtain rfl := Option.some.inj (hl'.symm.trans hk)
          exact ⟨_, if_pos rfl, hb⟩
        · exact ⟨l', by rw [if_neg he]; exact hl', hb⟩

/-! ## A lot filled or closed (R10, R13) -/

theorem State.canonical_unmapLanesOf {s : State} (hs : s.canonical = true) (k : Nat) :
    (s.unmapLanesOf k).canonical = true := by
  rw [State.unmapLanesOf_eq_foldl]
  refine foldl_keeps (fun t => t.canonical = true) _ _ (fun t n _ ht => ?_) s hs
  rcases t.unmapStep_cases k n with ⟨-, l, -, he⟩ | ⟨-, he⟩
  · rw [he]
    exact State.canonical_modLot (State.canonical_setWait (State.canonical_setLane ht n _) _ _) k _
  · rw [he]; exact ht

/-- A lot becomes FINISHING and its lanes are unmapped. `u` is the state with the lot's new record. -/
theorem State.netsInBand_finished {s u : State} (hs : s.netsInBand) {k : Nat} {cause : FinishCause}
    (hc : u.canonical = true) (hlanes : u.lanes = s.lanes) (hchests : u.chests = s.chests)
    (hlots : u.lots = (s.modLot k (fun l => { l with state := .finishing, cause := some cause })).lots) :
    (u.unmapLanesOf k).netsInBand := by
  rw [State.netsInBand_iff] at hs ⊢
  obtain ⟨-, hnum, hfed, hlot, hband⟩ := hs
  obtain ⟨hframe, hlane, -, hother, hnone, hsome⟩ := u.unmapLanesOf_spec k
  have hcan := State.canonical_unmapLanesOf hc k
  generalize u.unmapLanesOf k = t at *
  have ulane (n : Nat) : u.lane? n = s.lane? n := congrArg (Table.get? · n) hlanes
  have ulot (j : Nat) : u.lot? j = if j = k then (s.lot? k).map (fun l => { l with
      state := .finishing, cause := some cause }) else s.lot? j :=
    (congrArg (Table.get? · j) hlots).trans (State.modLot_lot? s k j _)
  have ufeeders : u.feeders k = s.feeders k :=
    State.feeders_congr (fun n => by unfold State.target?; rw [ulane]) k
  rw [ufeeders] at hlane hsome
  have tbooked (id : Nat) : t.booked id = s.booked id := by
    rw [hframe]; exact congrArg (fun m => (Table.get? m id).bind Chest.booked) hchests
  have target (n : Nat) : t.target? n = if n ∈ s.feeders k then none else s.target? n := by
    unfold State.target?; rw [hlane, ulane]; split <;> rfl
  have notk (n a : Nat) : t.target? n ≠ some (.lot k a) := by
    rw [target]
    split
    · simp
    · next hn =>
      intro he
      exact hn (State.mem_feeders_iff.mpr ⟨hnum n (by simp [he]), a, he⟩)
  have other (j n b : Nat) (hj : j ≠ k) : t.target? n = some (.lot j b) ↔ s.target? n = some (.lot j b) := by
    rw [target]
    split
    · next hn =>
      obtain ⟨-, a, ha⟩ := State.mem_feeders_iff.mp hn
      simp [ha, hj.symm]
    · rfl
  have lot_eq (j : Nat) (hj : j ≠ k) : t.lot? j = s.lot? j := by rw [hother j hj, ulot, if_neg hj]
  have lot_some {l : Lot} (hl : s.lot? k = some l) : t.lot? k = some { l with
      state := .finishing, cause := some cause, mappedLanes := l.mappedLanes - (s.feeders k).length } :=
    hsome { l with state := .finishing, cause := some cause } (by rw [ulot, if_pos rfl, hl]; rfl) (by simp)
  refine ⟨hcan, fun n hn => hnum n ?_, fun n j b hn => ?_, fun j l hj => ?_, fun id j o ho => ?_⟩
  · intro he; rw [target, he] at hn; simp at hn
  · by_cases hj : j = k
    · exact absurd (hj ▸ hn) (notk n b)
    · rw [lot_eq j hj]; exact hfed n j b ((other j n b hj).mp hn)
  · by_cases he : j = k
    · subst he
      have hempty : (t.feeders j).length = 0 := by
        rw [List.length_eq_zero_iff, List.eq_nil_iff_forall_not_mem]
        intro n hn
        obtain ⟨-, a, ha⟩ := State.mem_feeders_iff.mp hn
        exact notk n a ha
      cases hl : s.lot? j with
      | none => rw [hnone (by rw [ulot, if_pos rfl, hl]; rfl)] at hj; cases hj
      | some l₀ =>
        obtain ⟨hm, -, hr, hd⟩ := hlot j l₀ hl
        rw [lot_some hl, Option.some.injEq] at hj
        rw [hempty, ← hj]
        exact ⟨by simp [hm], fun h => absurd rfl h, hr, hd⟩
    · rw [State.length_feeders_eq fun n b => other j n b he]
      exact hlot j l (lot_eq j he ▸ hj)
  · rw [tbooked] at ho
    obtain ⟨l, hl, hb⟩ := hband id j o ho
    by_cases he : j = k
    · subst he; exact ⟨_, lot_some hl, hb⟩
    · exact ⟨l, by rw [lot_eq j he]; exact hl, hb⟩

theorem State.netsInBand_fillIfFull {s : State} (hs : s.netsInBand) (k : Nat) : (s.fillIfFull k).netsInBand := by
  unfold State.fillIfFull
  split
  · exact hs
  · split
    · refine ((State.SameTerms.refl _).evalComplete k).netsInBand (State.netsInBand_finished hs ?_ rfl rfl rfl)
      exact State.canonical_setNotice (State.canonical_modLot (s.netsInBand_iff.mp hs).1 k _) _ _
    · exact hs

/-! ## A chest accepted (R97, R100, R102) -/

/-- The net that an accepted chest is recorded with lies in its lot's band. -/
theorem Lot.bands_of_pass {l : Lot} {n d x : Nat} {net : Int} (h : l.sound n)
    (hp : acceptanceTest l net d = .pass x) : l.bands (some x) := by
  obtain ⟨-, -, hr, q, hq⟩ := h
  unfold acceptanceTest at hp
  split at hp
  · cases hp
  · split at hp
    · cases hp
    · split at hp
      · cases hp
      · next hlow hhigh =>
        obtain rfl := TestResult.pass.inj hp
        have hD : l.declNet ≤ net.toNat := by omega
        refine ⟨_, rfl, ?_, ?_, Nat.dvd_mul_left _ _⟩
        · calc l.declNet = q * l.step := by rw [hq, Nat.mul_comm]
            _ ≤ net.toNat / l.step * l.step :=
              Nat.mul_le_mul_right _ ((Nat.le_div_iff_mul_le hr).mpr (by rw [Nat.mul_comm, ← hq]; exact hD))
        · have := Nat.div_mul_le_self net.toNat l.step
          omega

theorem State.netsInBand_setAccepted {s : State} (hs : s.netsInBand) {id k : Nat} {c : Chest} {l : Lot} {o : Option Nat}
    (hl : s.lot? k = some l) (hb : l.bands o) (hc : c.booked = some (k, o)) :
    (s.setChest id (some c)).netsInBand := by
  rw [State.netsInBand_iff] at hs ⊢
  obtain ⟨hcan, hnum, hfed, hlot, hband⟩ := hs
  refine ⟨State.canonical_setChest hcan id _, hnum, hfed, hlot, fun j k' o' ho => ?_⟩
  unfold State.booked at ho
  rw [State.setChest_chest?] at ho
  split at ho
  · rw [Option.bind_some, hc] at ho
    cases ho
    exact ⟨l, hl, hb⟩
  · exact hband j k' o' ho

theorem State.netsInBand_acceptChest {s : State} (hs : s.netsInBand) {id k x : Nat} {c : Chest} {l : Lot}
    (hl : s.lot? k = some l) (hb : l.bands (some x)) (head : Nat) (w : Bool) :
    (s.acceptChest id c k head x w).netsInBand := by
  have haccepted := State.netsInBand_setAccepted (id := id) (c := { c with
    place := .accepted k ((s.lotD k).accepted + 1) (s.lotD k).bulk, recNet := some x, reprints := 0 }) hs hl hb rfl
  unfold State.acceptChest
  exact (((State.SameTerms.refl _).modLot.modBulk _ _).appendJob head id .first).netsInBand haccepted

/-! ## Lots opened and retired (R5, R22) -/

theorem State.netsInBand_setLot {s : State} (hs : s.netsInBand) {k : Nat} {l : Lot} (hfree : s.lot? k = none)
    (hl : l.sound 0) : (s.setLot k (some l)).netsInBand := by
  rw [State.netsInBand_iff] at hs ⊢
  obtain ⟨hc, hnum, hfed, hlot, hband⟩ := hs
  refine ⟨State.canonical_setLot hc k _, hnum, fun n j a hn => ?_, fun j l' hj => ?_, fun id j o ho => ?_⟩
  · rw [State.setLot_lot?]
    split
    · simp
    · exact hfed n j a hn
  · rw [State.setLot_lot?] at hj
    split at hj
    · next he =>
      subst he
      have hempty : s.feeders j = [] := by
        rw [List.eq_nil_iff_forall_not_mem]
        intro n hn
        obtain ⟨-, a, ha⟩ := State.mem_feeders_iff.mp hn
        exact hfed n j a ha hfree
      cases hj
      change Lot.sound _ (s.feeders j).length
      rw [hempty]
      exact hl
    · exact hlot j l' hj
  · obtain ⟨l', hl', hb⟩ := hband id j o ho
    refine ⟨l', ?_, hb⟩
    rw [State.setLot_lot?, if_neg (fun he => by rw [he, hfree] at hl'; cases hl'), hl']

/-- A held chest that forgets its origin lot is held, and any other is as it was. -/
theorem Chest.booked_forgetOrigin (k : Nat) (c : Chest) : (c.forgetOrigin k).booked = c.booked := by
  unfold Chest.forgetOrigin
  cases hp : c.place with
  | tentative j => rfl
  | accepted j n b => rfl
  | held r o =>
    cases o with
    | none => rfl
    | some j => dsimp only; split <;> simp [Chest.booked, hp]

theorem Chest.inLot_iff {c : Chest} {k : Nat} : c.inLot k = true ↔ ∃ n b, c.place = .accepted k n b := by
  unfold Chest.inLot
  cases c.place <;> simp

/-- Lot `k` leaves its slot, its accepted chests are freed, and held chests forget it. -/
def State.withoutLot (s : State) (k : Nat) : State :=
  { s with
    lots := s.lots.put k none
    chests := Table.mapVals (fun _ c => c.forgetOrigin k) (s.chests.filter (fun e => !e.2.inLot k)) }

theorem State.withoutLot_lot? (s : State) (k j : Nat) :
    (s.withoutLot k).lot? j = if j = k then none else s.lot? j := Table.get?_put s.lots k j none

theorem State.canonical_withoutLot {s : State} (hs : s.canonical = true) (k : Nat) :
    (s.withoutLot k).canonical = true := by
  obtain ⟨hlots, hcl, hb, hla, hchests, hrest⟩ := s.canonical_iff.mp hs
  have hkept := Table.sorted_mapVals (fun _ c => c.forgetOrigin k) (Table.sorted_filter (fun e => !e.2.inLot k) hchests)
  exact State.canonical_iff _ |>.mpr ⟨Table.sorted_put k none hlots, hcl, hb, hla, hkept, hrest⟩

/-- A lot that is not PACKING, and so fed by no lane, leaves its slot. -/
theorem State.netsInBand_retired {s : State} (hs : s.netsInBand) {k : Nat} {l : Lot} (hl : s.lot? k = some l)
    (hm : l.state ≠ .packing) :
    (s.withoutLot k).netsInBand := by
  rw [State.netsInBand_iff] at hs ⊢
  obtain ⟨hc, hnum, hfed, hlot, hband⟩ := hs
  obtain ⟨-, -, -, -, hchests, -⟩ := s.canonical_iff.mp hc
  have unfed (n a : Nat) : s.target? n ≠ some (.lot k a) := by
    intro ha
    obtain ⟨-, hp, -⟩ := hlot k l hl
    refine hm (hp fun h0 => ?_)
    have hmem : n ∈ s.feeders k := State.mem_feeders_iff.mpr ⟨hnum n (by simp [ha]), a, ha⟩
    rw [List.length_eq_zero_iff.mp h0] at hmem
    cases hmem
  refine ⟨State.canonical_withoutLot hc k, hnum, fun n j a hn => ?_, fun j l' hj => ?_,
    fun id j o ho => ?_⟩
  · rw [State.withoutLot_lot?, if_neg (fun he : j = k => unfed n a (he ▸ hn))]
    exact hfed n j a hn
  · rw [State.withoutLot_lot?] at hj
    split at hj
    · cases hj
    · exact hlot j l' hj
  · obtain ⟨c, hcm, hcb⟩ := Option.bind_eq_some_iff.mp ho
    obtain ⟨⟨i, c₀⟩, hmem, he⟩ := List.mem_map.mp (Table.get?_mem hcm)
    obtain ⟨hmem, hout⟩ := List.mem_filter.mp hmem
    obtain ⟨rfl, rfl⟩ := Prod.mk.inj he
    rw [Chest.booked_forgetOrigin] at hcb
    obtain ⟨l', hl', hb⟩ := hband i j o (by
      rw [State.booked, State.chest?, Table.get?_of_mem hchests hmem]; exact hcb)
    refine ⟨l', ?_, hb⟩
    rw [State.withoutLot_lot?, if_neg, hl']
    rintro rfl
    obtain ⟨hp, -⟩ := Chest.booked_iff.mp hcb
    simp [Chest.inLot_iff.mpr hp] at hout

/-! ## All records emptied (R27, R70, R88, R180) -/

/-- With no lot, lane or chest left, canonical tables are all that the law asks for. -/
theorem State.netsInBand_empty {s : State} (hc : s.canonical = true) (hl : s.lots = []) (hn : s.lanes = [])
    (hch : s.chests = []) : s.netsInBand := by
  have target (n : Nat) : s.target? n = none := by simp [State.target?, State.lane?, hn]
  have lot (k : Nat) : s.lot? k = none := by simp [State.lot?, hl]
  have booked (id : Nat) : s.booked id = none := by simp [State.booked, State.chest?, hch]
  rw [State.netsInBand_iff]
  simp [hc, target, lot, booked]

theorem State.canonical_emptied {s : State} (hs : s.canonical = true) : s.emptied.canonical = true := by
  unfold State.emptied
  refine foldl_keeps (fun t : State => t.canonical = true) _ _ (fun t a _ ht => State.canonical_setHead ht a _) _ ?_
  obtain ⟨-, hcl, -, -, -, hst, hv, hh, -, hn⟩ := s.canonical_iff.mp hs
  exact State.canonical_iff _ |>.mpr ⟨rfl, hcl, rfl, rfl, rfl, hst, hv, hh, rfl, hn⟩

theorem State.netsInBand_purged {s : State} (hs : s.canonical = true) : s.purged.netsInBand := by
  obtain ⟨heads, he, -⟩ := foldl_modHead Head.purged
    { s with lots := [], chests := [], pool := [], bulks := [], lanes := [], waits := [] }
  have hemptied : s.emptied = { s with
      heads := heads, lots := [], chests := [], pool := [], bulks := [], lanes := [], waits := [] } := he
  have hraised : (s.emptied.raise .purgeDone none).netsInBand := by
    refine State.netsInBand_empty (State.canonical_setNotice (State.canonical_emptied hs) .purgeDone _) ?_ ?_ ?_ <;>
      rw [hemptied] <;> rfl
  unfold State.purged
  generalize s.emptied.raise .purgeDone none = u at hraised ⊢
  exact ((State.SameTerms.refl u).frame rfl rfl rfl id).netsInBand hraised

end Sys2Proof.Machine
end

section
/-! PROOFS. Every command keeps the law of O58 (R5, R7, R71, R97), command by command. -/

namespace Sys2Proof.Machine

/-! ## Commands in general -/

/-- A property that a change of the buffer and the owner's update keep is kept by the taking of a frame. -/
theorem takeCommand_keeps {α : Type} {P : State → Prop} {code : Byte} {read : List Byte → Option α} {w : Bool}
    {own : α → State → State × Reply} {s : State} (hb : ∀ (t : State) b, P t → P (t.setBuffer b))
    (ho : ∀ p, P (own p s).1) (hs : P s) : P (takeCommand code read w own s) := by
  rcases takeCommand_cases code read w own s with he | he | he | ⟨p, he⟩
  · rw [he]; exact hs
  · rw [he]; exact hb _ _ hs
  · rw [he]; exact hb _ _ hs
  · rw [he]; exact hb _ _ (ho p)

/-- A refused command keeps what held, and a command that is taken may use all its checks. -/
theorem checked_keeps {P : State → Prop} {s : State} {checks : List (Bool × Status)} {effect : State × Reply} (hs : P s)
    (he : (∀ e ∈ checks, e.1 = true) → P effect.1) : P (checked s checks effect).1 := by
  unfold checked
  cases hf : firstFailing checks with
  | some st => exact hs
  | none => exact he (firstFailing_none.mp hf)

theorem checked_okay_keeps {P : State → Prop} {s u : State} {checks : List (Bool × Status)} {data : List Byte} (hs : P s)
    (hu : P u) : P (checked s checks (okay u data)).1 := checked_keeps hs fun _ => hu

theorem keeps_of_next {P : State → Prop} {u t : State} (hu : P u)
    (h : (.next u : Host.Outcome State Fault Refusal) = .next t) : P t := Host.Outcome.next.inj h ▸ hu

theorem atStation_keeps {P : State → Prop} {a : Nat} {e : Bool} {t s : State} (ht : P t) (hs : P s) :
    P (atStation a e t s) := by
  rcases atStation_cases a e t s with he | he <;> rw [he] <;> assumption

theorem takeFrom_keeps {P : State → Prop} {a : Nat} {f : Call → Option State} {s : State}
    (hf : ∀ c t, f c = some t → P t) (hs : P s) : P (takeFrom a f s) := by
  rcases takeFrom_cases a f s with he | ⟨c, t, -, hc, he, -⟩
  · rw [he]; exact hs
  · rw [he]; exact hf c t hc

theorem State.lotIs_iff {s : State} {k : Nat} {p : Lot → Bool} :
    s.lotIs k p = true ↔ ∃ l, s.lot? k = some l ∧ p l = true := by
  unfold State.lotIs; cases s.lot? k <;> simp

/-! ## Commands that the law does not see -/

theorem setStation_sameTerms (p : SetStationParams) (s : State) : s.SameTerms (setStation p s).1 := by
  have configured (b : Prop) [Decidable b] (v : Station) (u : Verification) (h : Head) : s.SameTerms
      (if b then s.setStation p.station v
        else ((s.setStation p.station v).setVerification p.station u).setHead p.station h) := by
    split
    · exact (State.SameTerms.refl s).setStation _ _
    · exact (((State.SameTerms.refl s).setStation _ _).setVerification _ _).setHead _ _
  exact checked_keeps (State.SameTerms.refl s) fun _ => configured _ _ _ _

theorem mixBulk_sameTerms (p : Nat × Nat) (s : State) : s.SameTerms (mixBulk p s).1 := by
  refine checked_keeps (State.SameTerms.refl s) fun _ => ?_
  split
  · exact State.SameTerms.refl s
  · exact (State.SameTerms.refl s).modBulk _ _

theorem readBulk_sameTerms (p : Named) (s : State) : s.SameTerms (readBulk p s).1 := by
  cases p with
  | slot k => exact checked_keeps (State.SameTerms.refl s) fun _ => State.SameTerms.refl s
  | number n => exact checked_keeps (State.SameTerms.refl s) fun _ => State.SameTerms.refl s
  | bad => exact State.SameTerms.refl s

theorem readLot_sameTerms (p : Named) (s : State) : s.SameTerms (readLot p s).1 := by
  cases p with
  | slot k => exact checked_keeps (State.SameTerms.refl s) fun _ => State.SameTerms.refl s
  | number n => exact checked_keeps (State.SameTerms.refl s) fun _ => State.SameTerms.refl s
  | bad => exact State.SameTerms.refl s

theorem readChest_sameTerms (p : ChestName) (s : State) : s.SameTerms (readChest p s).1 := by
  cases p with
  | id n => exact checked_keeps (State.SameTerms.refl s) fun _ => State.SameTerms.refl s
  | serial k n => exact checked_keeps (State.SameTerms.refl s) fun _ => State.SameTerms.refl s
  | position n => exact checked_keeps (State.SameTerms.refl s) fun _ => State.SameTerms.refl s
  | bad => exact State.SameTerms.refl s

theorem declareLot_sameTerms (k : Nat) (s : State) : s.SameTerms (declareLot k s).1 := by
  refine checked_keeps (State.SameTerms.refl s) fun hchecks => (State.SameTerms.refl s).modLot fun l hl => ?_
  have hcomplete : s.lotIs k (fun l => l.state == .complete) = true :=
    hchecks (s.lotIs k (fun l => l.state == .complete), .badState) (by simp)
  rw [State.lotIs_eq hl, beq_iff_eq] at hcomplete
  simp [Lot.terms, hcomplete]

theorem drawSample_sameTerms (p : SampleParams) (s : State) : s.SameTerms (drawSample p s).1 := by
  refine checked_keeps (State.SameTerms.refl s) fun _ => ?_
  dsimp only [okay]
  split
  · exact ((State.SameTerms.refl s).modChest.modLot).appendJob _ _ _
  · exact (State.SameTerms.refl s).modChest.modLot

theorem returnChest_sameTerms (id : Nat) (s : State) : s.SameTerms (returnChest id s).1 :=
  checked_keeps (State.SameTerms.refl s) fun _ => ((State.SameTerms.refl s).removeLast id).holdChest id _ _ _

theorem voidChest_sameTerms (id : Nat) (s : State) : s.SameTerms (voidChest id s).1 := by
  unfold voidChest
  split
  · exact checked_keeps (State.SameTerms.refl s) fun _ => (State.SameTerms.refl s).freeChest id
  · exact checked_keeps (State.SameTerms.refl s) fun _ => ((State.SameTerms.refl s).removeLast id).freeChest id

theorem releaseLane_sameTerms (p : ReleaseParams) (s : State) : s.SameTerms (releaseLane p s).1 := by
  refine checked_keeps (State.SameTerms.refl s) fun hchecks => ?_
  have hheld : s.laneIs p.lane (fun l => l.state.isHeld) = true :=
    hchecks (s.laneIs p.lane (fun l => l.state.isHeld), .badState) (by simp)
  rw [State.laneIs_eq_any, Option.any_eq_true] at hheld
  obtain ⟨l, hl, -⟩ := hheld
  rw [State.laneD_eq hl]
  exact (State.SameTerms.refl s).setLane hl

theorem cancelVerify_sameTerms (a : Nat) (s : State) : s.SameTerms (cancelVerify a s).1 := by
  refine checked_keeps (State.SameTerms.refl s) fun _ => ?_
  split
  · dsimp only [okay]
    exact ((State.SameTerms.refl s).setVerification _ _).modStation _ _
  · exact State.SameTerms.refl s

theorem clearNotices_sameTerms (set : Nat) (s : State) : s.SameTerms (clearNotices set s).1 := by
  refine checked_keeps (State.SameTerms.refl s) fun _ => ?_
  dsimp only [okay]
  refine (State.SameTerms.refl s).foldl (fun t k => ?_) noticeKinds
  split
  · exact (State.SameTerms.refl t).setNotice _ _
  · exact State.SameTerms.refl t

theorem startPurge_sameTerms (p : Unit) (s : State) : s.SameTerms (startPurge p s).1 := by
  refine checked_keeps (State.SameTerms.refl s) fun _ => ?_
  have purging : s.SameTerms { s with
      part := .purging, purgeTimer := some Config.purgeMs, noticesAtPurge := s.pendingKinds } :=
    (State.SameTerms.refl s).frame rfl rfl rfl id
  exact purging.foldl (fun t a => (State.SameTerms.refl t).modHead a _) _

theorem readWindow_sameTerms (n : Nat) (s : State) : s.SameTerms (readWindow n s) := by
  unfold readWindow
  split
  · exact State.SameTerms.refl s
  · split <;> exact (State.SameTerms.refl s).frame rfl rfl rfl id

theorem windowEnd_sameTerms (bytes : List Byte) (s : State) : s.SameTerms (windowEnd bytes s) := by
  unfold windowEnd
  split
  · exact State.SameTerms.refl s
  · split
    · exact State.SameTerms.refl s
    · exact (State.SameTerms.refl s).setBuffer _

theorem takeUnknown_sameTerms (s : State) : s.SameTerms (takeUnknown s) := by
  unfold takeUnknown
  split
  · exact State.SameTerms.refl s
  · split
    · exact State.SameTerms.refl s
    · exact (State.SameTerms.refl s).setBuffer _

theorem takeReply_sameTerms {s u : State} (hu : s.SameTerms u) (a : Nat) : s.SameTerms (s.takeReply a u) := by
  unfold State.takeReply
  split
  · exact hu.answerCall a _ _
  · exact (State.SameTerms.refl s).answerCall a _ _

/-! ## Commands that the law sees -/

/-- The terms of OPEN_LOT that the law names. -/
theorem OpenLotParams.sound_lot {p : OpenLotParams} (h : p.inRange = true) : p.lot.sound 0 := by
  simp only [OpenLotParams.inRange, Bool.and_eq_true, List.contains_iff_mem, beq_iff_eq] at h
  obtain ⟨⟨⟨⟨⟨⟨⟨-, hstep⟩, hdvd⟩, -⟩, -⟩, -⟩, -⟩, -⟩ := h
  refine ⟨rfl, fun h => absurd rfl h, ?_, Nat.dvd_of_mod_eq_zero hdvd⟩
  change 0 < p.step
  simp only [List.mem_cons, List.not_mem_nil, or_false] at hstep
  omega

theorem openLot_netsInBand {s : State} (hs : s.netsInBand) (p : OpenLotParams) : (openLot p s).1.netsInBand := by
  refine checked_keeps hs fun hchecks => ((State.SameTerms.refl _).modBulk _ _).netsInBand (State.netsInBand_setLot hs ?_ ?_)
  · exact Option.isNone_iff_eq_none.mp (hchecks ((s.lot? p.slot).isNone, .badState) (by simp))
  · exact OpenLotParams.sound_lot (hchecks (p.inRange, .badValue) (by simp))

theorem closeLot_netsInBand {s : State} (hs : s.netsInBand) (k : Nat) : (closeLot k s).1.netsInBand := by
  refine checked_keeps hs fun _ => ((State.SameTerms.refl _).evalComplete k).netsInBand ?_
  exact State.netsInBand_finished hs (State.canonical_modLot (s.netsInBand_iff.mp hs).1 k _) rfl rfl rfl

theorem retireLot_netsInBand {s : State} (hs : s.netsInBand) (k : Nat) : (retireLot k s).1.netsInBand := by
  refine checked_keeps hs fun hchecks => ?_
  have hmay := hchecks (s.lotIs k (fun l =>
    l.state == .declared || (l.state == .opened && l.accepted == 0 && l.tentative == 0)), .badState) (by simp)
  obtain ⟨l, hl, hl'⟩ := State.lotIs_iff.mp hmay
  have hu := ((State.SameTerms.refl s).modBulk (s.lotD k).bulk fun b => { b with lotRefs := b.lotRefs - 1 }).netsInBand hs
  refine State.netsInBand_retired hu hl fun hp => ?_
  simp [hp] at hl'

theorem mapLane_netsInBand {s : State} (hs : s.netsInBand) (p : MapLaneParams) : (mapLane p s).1.netsInBand := by
  refine checked_keeps hs fun hchecks => ?_
  simp only [List.forall_mem_cons] at hchecks
  obtain ⟨hlane, -, hfree, hfeed, -⟩ := hchecks
  have hn : 1 ≤ p.lane ∧ p.lane ≤ 8 := by simpa [isLane] using hlane
  have hfree := Option.isNone_iff_eq_none.mp hfree
  dsimp only at hfeed ⊢
  split
  · next k a ht =>
    rw [ht] at hfeed
    obtain ⟨l, hl, htakes⟩ := State.lotIs_iff.mp hfeed
    rw [Bool.and_eq_true] at htakes
    exact State.netsInBand_mapLot hs hn hfree ht hl htakes.1
  · next ht => exact State.netsInBand_mapHold hs hn hfree ht

theorem unmapLaneCommand_netsInBand {s : State} (hs : s.netsInBand) (n : Nat) :
    (unmapLaneCommand n s).1.netsInBand := checked_okay_keeps hs (State.netsInBand_unmapLane hs n)

theorem assignHeld_netsInBand {s : State} (hs : s.netsInBand) (p : AssignParams) : (assignHeld p s).1.netsInBand := by
  refine checked_keeps hs fun hchecks => ?_
  obtain ⟨l, hl, -⟩ := State.lotIs_iff.mp (hchecks (s.lotIs p.slot Lot.takesChests, .badState) (by simp))
  rw [State.lotD_eq hl]
  split
  · exact hs
  · next x hx =>
    split
    · obtain ⟨-, -, -, hlot, -⟩ := s.netsInBand_iff.mp hs
      have hleft := ((State.SameTerms.refl s).leavePool p.chest).netsInBand hs
      exact State.netsInBand_fillIfFull
        (State.netsInBand_acceptChest hleft hl (Lot.bands_of_pass (hlot _ _ hl) hx) _ _) _
    · exact hs

/-! ## Gross calls (chapter 5) -/

theorem State.netsInBand_endAcceptance {s : State} (hs : s.netsInBand) (n k : Nat) : (s.endAcceptance n k).netsInBand := by
  have ended {u : State} (hu : u.netsInBand) : (if u.lotIs k (fun l => l.accepted == l.planned) then u.fillIfFull k
      else (u.fireOneShot n).settleLane n).netsInBand := by
    split
    · exact State.netsInBand_fillIfFull hu k
    · exact (((State.SameTerms.refl u).fireOneShot n).settleLane n).netsInBand hu
  unfold State.endAcceptance
  dsimp only
  split
  · exact ended (((State.SameTerms.refl s).raise _ _).netsInBand hs)
  · exact ended hs

/-- The lane that serves a scale is a mapped one. -/
theorem State.laneOf_target {s : State} (hc : s.canonical = true) {a n : Nat} {l : Lane} (h : s.laneOf a = some (n, l)) :
    s.target? n = some l.target := by
  obtain ⟨-, -, -, hlanes, -⟩ := s.canonical_iff.mp hc
  exact State.target?_eq (Table.get?_of_mem hlanes (Table.find_some h).1)

/-- An outcome that accepts a chest does so in the non-free lot of a lane that passed the acceptance test. -/
theorem State.decideGross_accept {s : State} (hc : s.canonical = true) {a : Nat} {r : Reading} {w : Weighed} {chest : Option Nat} {k h x : Nat}
    (hd : s.decideGross a r = .outcome w (.accept chest k h x)) :
    (∃ n b, s.target? n = some (.lot k b)) ∧ ∃ net d, acceptanceTest (s.lotD k) net d = .pass x := by
  have passed {k' b net d o} (ho : s.lotOutcome k' b o net d = .accept chest k h x) :
      k' = k ∧ acceptanceTest (s.lotD k) net d = .pass x := by
    unfold State.lotOutcome at ho
    dsimp only at ho
    split at ho
    · split at ho <;> cases ho
    · next y hy =>
      split at ho
      · cases ho; exact ⟨rfl, hy⟩
      · cases ho
  unfold State.decideGross at hd
  split at hd
  · cases hd
  · split at hd
    · cases hd
    · next n l hlane =>
      split at hd
      · cases hd
      · split at hd
        · cases hd
        · have htarget := State.laneOf_target hc hlane
          unfold State.netAndTest at hd
          dsimp only at hd
          split at hd
          · next hlot _ =>
            obtain ⟨rfl, hp⟩ := passed (GrossDecision.outcome.inj hd).2
            exact ⟨⟨n, _, hlot ▸ htarget⟩, _, _, hp⟩
          · next hlot _ =>
            split at hd
            · cases hd
            · obtain ⟨rfl, hp⟩ := passed (GrossDecision.outcome.inj hd).2
              exact ⟨⟨n, _, hlot ▸ htarget⟩, _, _, hp⟩
          · split at hd <;> cases hd

theorem State.netsInBand_takeOutcome {s : State} (hs : s.netsInBand) {w : Weighed} {o : GrossOutcome} (fresh : Nat)
    (ho : ∀ chest k h x, o = .accept chest k h x → ∃ l, s.lot? k = some l ∧ l.bands (some x)) :
    (s.takeOutcome w o fresh).netsInBand := by
  have hrefl := State.SameTerms.refl s
  cases o with
  | accept chest k h x =>
    obtain ⟨l, hl, hb⟩ := ho chest k h x rfl
    have hfor := hrefl.chestFor w chest fresh
    have hl' : (s.chestFor w chest fresh).2.2.lot? k = some l := by
      unfold State.chestFor; split <;> exact hl
    exact State.netsInBand_endAcceptance (State.netsInBand_acceptChest (hfor.netsInBand hs) hl' hb h _) _ k
  | firstFail k reason => exact ((hrefl.modLane.setChest).modLot.modLane).netsInBand hs
  | secondFail id k =>
    exact ((((hrefl.modLane).holdChest _ _ _ _).modLot.raise _ _).settleLane _).netsInBand hs
  | balance chest k x =>
    have held := (hrefl.chestFor w chest fresh).holdChest (s.chestFor w chest fresh).1
      { (s.chestFor w chest fresh).2.1 with recNet := some x } .balance (some k)
    unfold State.takeOutcome
    dsimp only
    split
    · exact (((held.modLot).raise _ _).holdCause _ _ _).settleLane _ |>.netsInBand hs
    · exact ((held.raise _ _).holdCause _ _ _).settleLane _ |>.netsInBand hs
  | unassigned =>
    exact ((((hrefl.modLane).holdChest _ _ _ _).raise _ _).fireOneShot _).settleLane _ |>.netsInBand hs

theorem callGross_netsInBand {s t : State} (hs : s.netsInBand) {a : Nat} (h : callGross a s = .next t) :
    t.netsInBand := by
  have hrefl := State.SameTerms.refl s
  unfold callGross at h
  split at h
  · next r _ =>
    unfold State.evaluateGross at h
    split at h
    · next code _ =>
      refine keeps_of_next ?_ h
      have answered := hrefl.answerCall a code 0
      split
      · exact (answered.settleLane _).netsInBand hs
      · exact answered.netsInBand hs
    · next w o hd =>
      split at h
      · split at h
        · cases h
        · refine keeps_of_next (State.netsInBand_takeOutcome ((hrefl.answerCall a _ _).netsInBand hs) _ ?_) h
          rintro chest k x y rfl
          obtain ⟨hc, -, hfed, hlot, -⟩ := s.netsInBand_iff.mp hs
          obtain ⟨⟨n, b, ht⟩, net, d, hp⟩ := State.decideGross_accept hc hd
          obtain ⟨l, hl⟩ := Option.ne_none_iff_exists'.mp (hfed n k b ht)
          rw [State.lotD_eq hl] at hp
          exact ⟨l, by rw [State.answerCall_lotOf]; exact hl, Lot.bands_of_pass (hlot k l hl) hp⟩
      · exact keeps_of_next ((hrefl.leaveWaiting a _ _).netsInBand hs) h
  · exact keeps_of_next hs h

/-! ## Starts (chapter 10) -/

theorem State.netsInBand_reset : State.reset.netsInBand := State.netsInBand_empty (by decide) rfl rfl rfl

theorem State.netsInBand_start {s : State} (hs : s.netsInBand) (cause : RestartCause) : (s.start cause).netsInBand := by
  unfold State.start
  split
  · exact ((State.SameTerms.refl _).frame (u := s.coldStart cause) rfl rfl rfl id).netsInBand State.netsInBand_reset
  · next entered _ =>
    have hpurged : (if entered = .purging then s.purged else s).netsInBand := by
      split
      · exact State.netsInBand_purged (s.netsInBand_iff.mp hs).1
      · exact hs
    unfold State.warmStart
    dsimp only
    generalize (if entered = .purging then s.purged else s) = u at hpurged ⊢
    have hraised := (((State.SameTerms.refl u).resolved).raise .restarted (some RestartKind.warm.code)).netsInBand hpurged
    generalize u.resolved.raise .restarted (some RestartKind.warm.code) = v at hraised ⊢
    exact ((State.SameTerms.refl v).frame rfl rfl rfl id).netsInBand hraised

theorem State.enterRetain_sameTerms (s : State) : s.SameTerms s.enterRetain := by
  unfold State.enterRetain
  split
  · exact State.SameTerms.refl s
  · exact (State.SameTerms.refl s).frame rfl rfl rfl id

theorem pwrgoodFall_sameTerms (s : State) : s.SameTerms (pwrgoodFall s) := by
  unfold pwrgoodFall
  split
  · exact s.enterRetain_sameTerms.frame rfl rfl rfl id
  · exact State.SameTerms.refl s

theorem resetAssert_sameTerms (s : State) : s.SameTerms (resetAssert s) := by
  unfold resetAssert
  split
  · exact State.SameTerms.refl s
  · split
    · exact s.enterRetain_sameTerms.frame rfl rfl rfl id
    · exact (State.SameTerms.refl s).frame rfl rfl rfl id

theorem vbakBelow_sameTerms (s : State) : s.SameTerms (vbakBelow s) := by
  unfold vbakBelow
  split
  · exact (State.SameTerms.refl s).frame rfl rfl rfl id
  · exact State.SameTerms.refl s

theorem supplyFails_sameTerms (s : State) : s.SameTerms (supplyFails s) := by
  unfold supplyFails
  split
  · exact (State.SameTerms.refl s).frame rfl rfl rfl id
  · exact State.SameTerms.refl s

theorem pwrgoodRise_netsInBand {s : State} (hs : s.netsInBand) : (pwrgoodRise s).netsInBand := by
  have hraised : ({ s with pwrgood := true } : State).netsInBand := ((State.SameTerms.refl s).frame rfl rfl rfl id).netsInBand hs
  unfold pwrgoodRise
  split
  · exact hs
  · dsimp only
    split
    · exact State.netsInBand_start hraised _
    · exact hraised

theorem resetRelease_netsInBand {s : State} (hs : s.netsInBand) : (resetRelease s).netsInBand := by
  have hreleased : ({ s with resetAsserted := false } : State).netsInBand := ((State.SameTerms.refl s).frame rfl rfl rfl id).netsInBand hs
  unfold resetRelease
  split
  · exact hs
  · dsimp only
    split
    · exact State.netsInBand_start hreleased _
    · exact hreleased

theorem purgeComplete_netsInBand {s : State} (hs : s.netsInBand) : (purgeComplete s).netsInBand := by
  unfold purgeComplete
  split
  · exact State.netsInBand_purged (s.netsInBand_iff.mp hs).1
  · exact hs

/-! ## Calls and expiries -/

theorem callCharge_sameTerms (a : Nat) (s : State) : s.SameTerms (callCharge a s) :=
  takeFrom_keeps (fun c t hf => by
    split at hf
    · cases hf; exact (State.SameTerms.refl s).answerCharge a _
    · cases hf) (State.SameTerms.refl s)

theorem callDone_sameTerms (a : Nat) (s : State) : s.SameTerms (callDone a s) :=
  takeFrom_keeps (fun c t hf => by
    split at hf
    · cases hf; exact (State.SameTerms.refl s).answerDone a _
    · cases hf) (State.SameTerms.refl s)

theorem replyDone_sameTerms (a : Nat) (s : State) : s.SameTerms (replyDone a s) :=
  takeFrom_keeps (fun c t hf => by
    split at hf
    · cases hf; exact takeReply_sameTerms ((State.SameTerms.refl s).markDone a) a
    · cases hf) (State.SameTerms.refl s)

theorem replyFault_sameTerms (a : Nat) (s : State) : s.SameTerms (replyFault a s) :=
  takeFrom_keeps (fun c t hf => by
    split at hf
    · cases hf; exact takeReply_sameTerms ((State.SameTerms.refl s).markFault a _ _) a
    · cases hf) (State.SameTerms.refl s)

theorem callTare_sameTerms (a : Nat) (s : State) : s.SameTerms (callTare a s) :=
  takeFrom_keeps (fun c t hf => by
    split at hf
    · cases hf; exact (State.SameTerms.refl s).takeTare a _
    · cases hf) (State.SameTerms.refl s)

theorem callTest_sameTerms (a : Nat) (s : State) : s.SameTerms (callTest a s) :=
  takeFrom_keeps (fun c t hf => by
    split at hf
    · cases hf; exact (State.SameTerms.refl s).takeTest a _
    · cases hf) (State.SameTerms.refl s)

/-! ## Every command -/

theorem exec_netsInBand {i : Instr} {s t : State} (hs : s.netsInBand) (h : exec i s = .next t) : t.netsInBand := by
  have hrefl := State.SameTerms.refl s
  have same {u : State} (hu : s.SameTerms u) : u.netsInBand := hu.netsInBand hs
  have buffer (t : State) (b : Buffer) (ht : t.netsInBand) : (t.setBuffer b).netsInBand :=
    ((State.SameTerms.refl t).setBuffer b).netsInBand ht
  have host {α : Type} {code : Byte} {read : List Byte → Option α} {w : Bool} {own : α → State → State × Reply}
      (ho : ∀ p, s.SameTerms (own p s).1) : (takeCommand code read w own s).netsInBand :=
    takeCommand_keeps buffer (fun p => same (ho p)) hs
  cases i with
  | setStation => exact keeps_of_next (host (setStation_sameTerms · s)) h
  | readStation => exact keeps_of_next (host fun _ => checked_okay_keeps hrefl (hrefl.modStation _ _)) h
  | setTareClass => exact keeps_of_next (host fun _ => checked_okay_keeps hrefl (hrefl.setClass _ _)) h
  | readTareClass => exact keeps_of_next (host fun _ => checked_okay_keeps hrefl hrefl) h
  | openBulk => exact keeps_of_next (host fun _ => checked_okay_keeps hrefl (hrefl.setBulk _ _)) h
  | mixBulk => exact keeps_of_next (host (mixBulk_sameTerms · s)) h
  | settleCharge => exact keeps_of_next (host fun _ => checked_okay_keeps hrefl (hrefl.countCharge _ _ _ _)) h
  | spendBulk => exact keeps_of_next (host fun _ => checked_okay_keeps hrefl (hrefl.modBulk _ _)) h
  | freeBulk => exact keeps_of_next (host fun _ => checked_okay_keeps hrefl (hrefl.setBulk _ _)) h
  | readBulk => exact keeps_of_next (host (readBulk_sameTerms · s)) h
  | openLot => exact keeps_of_next (takeCommand_keeps buffer (openLot_netsInBand hs) hs) h
  | closeLot => exact keeps_of_next (takeCommand_keeps buffer (closeLot_netsInBand hs) hs) h
  | declareLot => exact keeps_of_next (host (declareLot_sameTerms · s)) h
  | retireLot => exact keeps_of_next (takeCommand_keeps buffer (retireLot_netsInBand hs) hs) h
  | drawSample => exact keeps_of_next (host (drawSample_sameTerms · s)) h
  | readLot => exact keeps_of_next (host (readLot_sameTerms · s)) h
  | readDeclaration => exact keeps_of_next (host fun _ => checked_okay_keeps hrefl hrefl) h
  | mapLane => exact keeps_of_next (takeCommand_keeps buffer (mapLane_netsInBand hs) hs) h
  | unmapLane => exact keeps_of_next (takeCommand_keeps buffer (unmapLaneCommand_netsInBand hs) hs) h
  | holdLane =>
    refine keeps_of_next ?_ h
    split
    · exact hs
    · exact host fun _ => checked_okay_keeps hrefl (hrefl.holdCause _ _ _)
  | holdLaneForce =>
    refine keeps_of_next ?_ h
    split
    · exact host fun _ => checked_okay_keeps hrefl (hrefl.forceHold _)
    · exact hs
  | releaseLane => exact keeps_of_next (host (releaseLane_sameTerms · s)) h
  | readLane => exact keeps_of_next (host fun _ => checked_okay_keeps hrefl hrefl) h
  | readChest => exact keeps_of_next (host (readChest_sameTerms · s)) h
  | assignHeld => exact keeps_of_next (takeCommand_keeps buffer (assignHeld_netsInBand hs) hs) h
  | returnChest => exact keeps_of_next (host (returnChest_sameTerms · s)) h
  | voidChest => exact keeps_of_next (host (voidChest_sameTerms · s)) h
  | pauseHead => exact keeps_of_next (host fun _ => checked_okay_keeps hrefl (hrefl.modHead _ _)) h
  | resumeHead => exact keeps_of_next (host fun _ => checked_okay_keeps hrefl (hrefl.modHead _ _)) h
  | flushHead => exact keeps_of_next (host fun _ => checked_okay_keeps hrefl (hrefl.cancelJobs _ _)) h
  | reprint => exact keeps_of_next (host fun _ => checked_okay_keeps hrefl (hrefl.modChest.appendJob _ _ _)) h
  | readHead => exact keeps_of_next (host fun _ => checked_okay_keeps hrefl hrefl) h
  | setVerify => exact keeps_of_next (host fun _ => checked_okay_keeps hrefl (hrefl.setVerification _ _)) h
  | verifyScale =>
    exact keeps_of_next (host fun _ => checked_okay_keeps hrefl ((hrefl.setVerification _ _).modStation _ _)) h
  | cancelVerify => exact keeps_of_next (host (cancelVerify_sameTerms · s)) h
  | readNotices => exact keeps_of_next (host fun _ => hrefl) h
  | clearNotices => exact keeps_of_next (host (clearNotices_sameTerms · s)) h
  | setNoticeEnables =>
    exact keeps_of_next (host fun _ => checked_okay_keeps hrefl
      (hrefl.foldl (fun t k => (State.SameTerms.refl t).setNotice k _) _)) h
  | readPart => exact keeps_of_next (host fun _ => hrefl) h
  | purge => exact keeps_of_next (host (startPurge_sameTerms · s)) h
  | unknownCommand => exact keeps_of_next (same (takeUnknown_sameTerms s)) h
  | commandWindowEnd bytes => exact keeps_of_next (same (windowEnd_sameTerms bytes s)) h
  | readWindow n => exact keeps_of_next (same (readWindow_sameTerms n s)) h
  | linkCycle => exact keeps_of_next (same hrefl.linkCycle) h
  | inboundWord a w => exact keeps_of_next (atStation_keeps (same (hrefl.judgeSlot a w)) hs) h
  | announceWindowExpiry a => exact keeps_of_next (atStation_keeps (same (hrefl.modStation a _)) hs) h
  | stationLost a => exact keeps_of_next (atStation_keeps (same (hrefl.lose a)) hs) h
  | rejoinInhibitExpiry a => exact keeps_of_next (atStation_keeps (same (hrefl.modStation a _)) hs) h
  | refusalExpiry a => exact keeps_of_next (atStation_keeps (same (hrefl.modStation a _)) hs) h
  | callGross a => exact callGross_netsInBand hs h
  | callTare a => exact keeps_of_next (same (callTare_sameTerms a s)) h
  | callTest a => exact keeps_of_next (same (callTest_sameTerms a s)) h
  | callCharge a => exact keeps_of_next (same (callCharge_sameTerms a s)) h
  | callDone a => exact keeps_of_next (same (callDone_sameTerms a s)) h
  | replyDone a => exact keeps_of_next (same (replyDone_sameTerms a s)) h
  | replyFault a => exact keeps_of_next (same (replyFault_sameTerms a s)) h
  | markTimeout a => exact keeps_of_next (atStation_keeps (same ((hrefl.markFault a _ _).raise _ _)) hs) h
  | intervalExpiry a => exact keeps_of_next (atStation_keeps (same (hrefl.modHead a _)) hs) h
  | periodExpiry a => exact keeps_of_next (atStation_keeps (same ((hrefl.setVerification a _).raise _ _)) hs) h
  | graceExpiry a => exact keeps_of_next (atStation_keeps (same (hrefl.graceOver a)) hs) h
  | purgeComplete => exact keeps_of_next (purgeComplete_netsInBand hs) h
  | pwrgoodFall => exact keeps_of_next (same (pwrgoodFall_sameTerms s)) h
  | resetAssert => exact keeps_of_next (same (resetAssert_sameTerms s)) h
  | pwrgoodRise => exact keeps_of_next (pwrgoodRise_netsInBand hs) h
  | resetRelease => exact keeps_of_next (resetRelease_netsInBand hs) h
  | vbakBelowHoldingLevel => exact keeps_of_next (same (vbakBelow_sameTerms s)) h
  | supplyFailsWithoutPwrgoodFall => exact keeps_of_next (same (supplyFails_sameTerms s)) h

theorem step_netsInBand {s t : State} (hs : s.netsInBand) (h : step s = .next t) : t.netsInBand := by
  unfold step at h
  split at h
  · exact keeps_of_next hs h
  · next c rest _ =>
    have hrest : ({ s with pending := rest } : State).netsInBand :=
      ((State.SameTerms.refl s).frame rfl rfl rfl id).netsInBand hs
    exact exec_netsInBand hrest h

/-- Settles O58: no command moves an accepted chest's recorded net out of its lot's band. -/
theorem stepKeepsNetsInBand : Obligations.StepKeepsNetsInBand := fun _ _ hs h => step_netsInBand hs h
end Sys2Proof.Machine
end

section
/-! PROOFS. A host command taken while RUNNING: refused by the first check that fails, or answered with OK. The reads, the
tare classes and the part after reset (O30, O18, O8, O60). -/

namespace Sys2Proof.Machine

/-! ## Checks in order, and the answer of the port -/

theorem checked_cons (s : State) (ok : Bool) (st : Status) (checks : List (Bool × Status)) (effect : State × Reply) :
    checked s ((ok, st) :: checks) effect = if ok then checked s checks effect else refuse s st := by
  cases ok <;> rfl

@[simp] theorem checked_nil (s : State) (effect : State × Reply) : checked s [] effect = effect := rfl

section Taken

variable {α : Type} {s : State} {code : Byte} {read : List Byte → Option α} {p : α} {w : Bool}
  {own : α → State → State × Reply} {i : Instr}

/-- A whole frame that the owner refuses. -/
theorem exec_refused {st : Status} {b : Byte} (hs : s.part = .running) (h : s.latches code read p)
    (hi : exec i s = .next (takeCommand code read w own s)) (ho : own p s = refuse s st)
    (hb : byte st.code = b := by rfl) : exec i s = .next (s.refused code b) := by
  rw [hi, takeCommand_running w own h hs, ho, respond_refuse, hb]

/-- A whole frame that the owner takes with OK. -/
theorem exec_okay {u : State} {data : List Byte} (hs : s.part = .running) (h : s.latches code read p)
    (hi : exec i s = .next (takeCommand code read w own s)) (ho : own p s = okay u data) :
    exec i s = .next (u.setBuffer (answer code 0x00 data)) := by
  rw [hi, takeCommand_running w own h hs, ho]; rfl

end Taken

/-! ## Records found by what they name -/

/-- The only entry with a property is the one that is found. -/
theorem Table.find_only {α : Type} {m : Table α} {p : Nat → α → Bool} {e : Nat × α} (he : e ∈ m)
    (h : ∀ d ∈ m, p d.1 d.2 = true ↔ d = e) : m.find p = some e := by
  cases hf : m.find p with
  | none =>
    have := Table.find_none hf e he
    rw [(h e he).mpr rfl] at this
    cases this
  | some d =>
    obtain ⟨hd, hp⟩ := Table.find_some (i := d.1) (v := d.2) hf
    exact congrArg some ((h d hd).mp hp)

theorem Table.find_eq_none {α : Type} {m : Table α} {p : Nat → α → Bool} (h : ∀ e ∈ m, p e.1 e.2 = false) :
    m.find p = none := by
  cases hf : m.find p with
  | none => rfl
  | some d =>
    obtain ⟨hd, hp⟩ := Table.find_some (i := d.1) (v := d.2) hf
    rw [h d hd] at hp
    cases hp

theorem State.lotIs_false {s : State} {k : Nat} {p : Lot → Bool} (h : ∀ l, s.lot? k = some l → p l = false) :
    s.lotIs k p = false := by
  unfold State.lotIs
  cases hl : s.lot? k with
  | none => rfl
  | some l => exact h l hl

/-! ## Reads (R23, R24, R38, R67, R85, R129) -/

theorem readBulk_slot (k : Nat) (s : State) :
    readBulk (.slot k) s = if k ≤ 15 then okay s (bulkData (s.bulk? k)) else refuse s .noSuch := by
  simp only [readBulk, checked_cons, checked_nil, Config.bulkSlots, decide_eq_true_eq, Nat.lt_succ_iff]

theorem readLot_slot (k : Nat) (s : State) :
    readLot (.slot k) s = if k ≤ 47 then okay s (lotData (s.lot? k)) else refuse s .noSuch := by
  simp only [readLot, checked_cons, checked_nil, Config.lotSlots, decide_eq_true_eq, Nat.lt_succ_iff]

theorem readBulk_number (n : Nat) (s : State) :
    readBulk (.number n) s =
      if 1 ≤ n ∧ n ≤ 9999 then
        if (s.bulks.find (fun _ b => b.number == n)).isSome then
          okay s (bulkData ((s.bulks.find (fun _ b => b.number == n)).map (·.2)))
        else refuse s .noSuch
      else refuse s .badValue := by
  simp only [readBulk, checked_cons, checked_nil, Bool.and_eq_true, decide_eq_true_eq]

theorem readLot_number (n : Nat) (s : State) :
    readLot (.number n) s =
      if 1 ≤ n ∧ n ≤ 999999 then
        if (s.lots.find (fun _ l => l.invoice == n)).isSome then
          okay s (lotData ((s.lots.find (fun _ l => l.invoice == n)).map (·.2)))
        else refuse s .noSuch
      else refuse s .badValue := by
  simp only [readLot, checked_cons, checked_nil, Bool.and_eq_true, decide_eq_true_eq]

theorem readDeclaration_eq (k : Nat) (s : State) :
    readDeclaration k s =
      if k ≤ 47 then
        if s.lotIs k (fun l => l.state == .declared) then
          okay s (match (s.lotD k).declaration with
            | some d => declarationData (s.lotD k) d
            | none => [])
        else refuse s .badState
      else refuse s .noSuch := by
  simp only [readDeclaration, checked_cons, checked_nil, Config.lotSlots, decide_eq_true_eq, Nat.lt_succ_iff] <;> rfl

theorem readLane_eq (n : Nat) (s : State) :
    readLane n s = if 1 ≤ n ∧ n ≤ 8 then okay s (s.laneData n) else refuse s .noSuch := by
  simp only [readLane, checked_cons, checked_nil, isLane, Bool.and_eq_true, decide_eq_true_eq]

theorem readHead_eq (a : Nat) (s : State) :
    readHead a s = if 1 ≤ a ∧ a ≤ 14 ∧ (s.station a).kind = .stencil then okay s (s.headData a)
      else refuse s .noSuch := by
  simp only [readHead, checked_cons, checked_nil, State.isKind, Bool.and_eq_true, decide_eq_true_eq, beq_iff_eq, and_assoc]

theorem readChest_id (id : Nat) (s : State) :
    readChest (.id id) s = if id ≤ 2047 then okay s (s.readRecord id) else refuse s .noSuch := by
  simp only [readChest, checked_cons, checked_nil, Config.chestRecords, decide_eq_true_eq, Nat.lt_succ_iff]

theorem readChest_serial (k n : Nat) (s : State) :
    readChest (.serial k n) s =
      if (k ≤ 47 ∧ ∃ l, s.lot? k = some l ∧ 1 ≤ n ∧ n ≤ l.accepted) ∧ (s.chestBySerial k n).isSome = true then
        okay s (s.readRecord (((s.chestBySerial k n).map (·.1)).getD 0))
      else refuse s .noSuch := by
  simp only [readChest, checked_cons, checked_nil, Config.lotSlots, Bool.and_eq_true, decide_eq_true_eq, Nat.lt_succ_iff,
    State.lotIs_iff]

theorem readChest_position (n : Nat) (s : State) :
    readChest (.position n) s =
      if 1 ≤ n ∧ n ≤ 64 then
        if n ≤ s.pool.length then okay s (s.readRecord ((s.pool[n - 1]?).getD 0)) else refuse s .noSuch
      else refuse s .badValue := by
  simp only [readChest, checked_cons, checked_nil, Config.poolCapacity, Bool.and_eq_true, decide_eq_true_eq]

/-- A read that answers when a condition holds and is refused when it does not. -/
theorem exec_read_if {α : Type} {s : State} {code : Byte} {read : List Byte → Option α} {p : α} {w : Bool}
    {own : α → State → State × Reply} {i : Instr} {c : Prop} [Decidable c] {data : List Byte} {st : Status}
    {b : Byte} (hs : s.part = .running) (h : s.latches code read p)
    (hi : exec i s = .next (takeCommand code read w own s)) (ho : own p s = if c then okay s data else refuse s st)
    (hb : byte st.code = b := by rfl) :
    exec i s = .next (if c then { s with buffer := answer code 0x00 data } else s.refused code b) := by
  split_ifs with hc
  · exact exec_okay hs h hi (ho.trans (if_pos hc))
  · exact exec_refused hs h hi (ho.trans (if_neg hc)) hb

/-- Settles O30: each read is its owner's answer, worked out from the checks of its rule. -/
theorem readsChangeNothing : Obligations.ReadsChangeNothing := by
  intro s hs
  refine ⟨fun h => exec_refused hs h rfl rfl, fun h => exec_refused hs h rfl rfl, fun h => exec_refused hs h rfl rfl,
    fun k h => exec_read_if hs h rfl (readBulk_slot k s), fun n h => ⟨fun hn => ?_, fun h1 h2 hno => ?_,
      fun e he h1 h2 honly => ?_⟩,
    fun k h => exec_read_if hs h rfl (readLot_slot k s), fun n h => ⟨fun hn => ?_, fun h1 h2 hno => ?_,
      fun e he h1 h2 honly => ?_⟩,
    fun k h => ⟨fun hk => ?_, fun hk hno => ?_, fun l d hk hl hdec hd => ?_⟩,
    fun n h => exec_read_if hs h rfl (readLane_eq n s),
    fun id h => exec_read_if hs h rfl (readChest_id id s),
    fun k n h => ⟨fun hno => ?_, fun l id c hk hl h1 h2 hc => ?_⟩,
    fun n h => ⟨fun hn => ?_, fun h1 h2 hn => ?_, fun id h1 h2 hid => ?_⟩,
    fun a h => exec_read_if hs h rfl (readHead_eq a s)⟩
  · exact exec_refused hs h rfl (by rw [readBulk_number, if_neg hn])
  · have hf : s.bulks.find (fun _ b => b.number == n) = none :=
      Table.find_eq_none fun e he => beq_eq_false_iff_ne.mpr (hno e he)
    exact exec_refused hs h rfl (by rw [readBulk_number, if_pos ⟨h1, h2⟩, hf]; rfl)
  · have hf : s.bulks.find (fun _ b => b.number == n) = some e :=
      Table.find_only he fun d hd => beq_iff_eq.trans (honly d hd)
    exact exec_okay hs h rfl (by rw [readBulk_number, if_pos ⟨h1, h2⟩, hf]; rfl)
  · exact exec_refused hs h rfl (by rw [readLot_number, if_neg hn])
  · have hf : s.lots.find (fun _ l => l.invoice == n) = none :=
      Table.find_eq_none fun e he => beq_eq_false_iff_ne.mpr (hno e he)
    exact exec_refused hs h rfl (by rw [readLot_number, if_pos ⟨h1, h2⟩, hf]; rfl)
  · have hf : s.lots.find (fun _ l => l.invoice == n) = some e :=
      Table.find_only he fun d hd => beq_iff_eq.trans (honly d hd)
    exact exec_okay hs h rfl (by rw [readLot_number, if_pos ⟨h1, h2⟩, hf]; rfl)
  · exact exec_refused hs h rfl (by rw [readDeclaration_eq, if_neg (by omega)])
  · have hl : s.lotIs k (fun l => l.state == .declared) = false :=
      State.lotIs_false fun l hl => beq_eq_false_iff_ne.mpr (hno l hl)
    exact exec_refused hs h rfl (by rw [readDeclaration_eq, if_pos hk, hl]; rfl)
  · exact exec_okay hs h rfl (by
      rw [readDeclaration_eq, if_pos hk, State.lotIs_eq hl, State.lotD_eq hl, hdec, hd]; rfl)
  · exact exec_refused hs h rfl (by rw [readChest_serial, if_neg (fun hc => hno hc.1)])
  · exact exec_okay hs h rfl (by rw [readChest_serial, if_pos ⟨⟨hk, l, hl, h1, h2⟩, by rw [hc]; rfl⟩, hc]; rfl)
  · exact exec_refused hs h rfl (by rw [readChest_position, if_neg hn])
  · exact exec_refused hs h rfl (by rw [readChest_position, if_pos ⟨h1, h2⟩, if_neg (by omega)])
  · have hlen : n - 1 < s.pool.length := (List.getElem?_eq_some_iff.mp hid).1
    exact exec_okay hs h rfl (by rw [readChest_position, if_pos ⟨h1, h2⟩, if_pos (by omega), hid]; rfl)

/-! ## Tare classes (R2, R3) -/

theorem windowOk_iff (w : Option (Option (Nat × Nat))) : windowOk w = true ↔
    w = some none ∨ ∃ lo hi, w = some (some (lo, hi)) ∧ 1 ≤ lo ∧ lo ≤ hi ∧ hi ≤ 20000 := by
  match w with
  | none => simp [windowOk]
  | some none => simp [windowOk]
  | some (some (lo, hi)) =>
    simp only [windowOk, Bool.and_eq_true, decide_eq_true_eq, Option.some.injEq, Prod.mk.injEq, reduceCtorEq, false_or]
    exact ⟨fun ⟨⟨h1, h2⟩, h3⟩ => ⟨lo, hi, ⟨rfl, rfl⟩, h1, h3, h2⟩,
      fun ⟨_, _, ⟨hlo, hhi⟩, h1, h3, h2⟩ => by subst hlo hhi; exact ⟨⟨h1, h2⟩, h3⟩⟩

theorem State.classLocked_iff (s : State) (k : Nat) : s.classLocked k = true ↔
    (∃ e ∈ s.lots, e.2.tareClass = k) ∨ ∃ e ∈ s.lanes, e.2.target = .hold ∧ e.2.tareClass = k := by
  simp only [State.classLocked, Bool.or_eq_true, List.any_eq_true, Bool.and_eq_true, beq_iff_eq]

theorem setTareClass_eq (p : TareClassParams) (s : State) :
    setTareClass p s =
      if p.number ≤ 7 then
        if 1 ≤ p.nominal ∧ p.nominal ≤ 20000 ∧ p.spread ≤ 5000 ∧ windowOk p.window = true then
          if s.classLocked p.number then refuse s .locked
          else okay (s.setClass p.number
            (some { nominal := p.nominal, window := p.window.getD none, spread := p.spread })) []
        else refuse s .badValue
      else refuse s .noSuch := by
  simp only [setTareClass, checked_cons, checked_nil, Bool.and_eq_true, decide_eq_true_eq, and_assoc]
  cases s.classLocked p.number <;> rfl

theorem readTareClass_eq (k : Nat) (s : State) :
    readTareClass k s = if k ≤ 7 then okay s (s.classData k) else refuse s .noSuch := by
  simp only [readTareClass, checked_cons, checked_nil, decide_eq_true_eq]

/-- Settles O18, check by check. -/
theorem tareClassIsSet : Obligations.TareClassIsSet := by
  intro s hs
  refine ⟨fun p h => ?_, fun k h => ⟨fun hk => ?_, fun hk => ?_⟩⟩
  · dsimp only
    rw [← windowOk_iff, ← State.classLocked_iff]
    refine ⟨fun hn => ?_, fun hn hbad => ?_, fun hn hgood hlocked => ?_, fun hn hgood hfree => ?_⟩
    · exact exec_refused hs h rfl (by rw [setTareClass_eq, if_neg (by omega)])
    · exact exec_refused hs h rfl (by rw [setTareClass_eq, if_pos hn, if_neg hbad])
    · exact exec_refused hs h rfl (by rw [setTareClass_eq, if_pos hn, if_pos hgood, if_pos hlocked])
    · have htaken := (setTareClass_eq p s).trans (by rw [if_pos hn, if_pos hgood, if_neg hfree])
      exact ⟨_, exec_okay hs h rfl htaken, rfl, by rw [State.setBuffer_classOf, State.setClass_self],
        fun k hk => by rw [State.setBuffer_classOf, State.setClass_class?, if_neg hk]⟩
  · exact exec_refused hs h rfl (by rw [readTareClass_eq, if_neg (by omega)])
  · exact exec_okay hs h rfl (by rw [readTareClass_eq, if_pos hk])

/-! ## The part after reset (R25, R46, R68, R86, R111, R130, R141, R158, R171) -/

/-- Settles O8: the tables are empty, and each record that is always present reads as a cold start leaves it. -/
theorem resetIsAColdStart : Obligations.ResetIsAColdStart := by
  refine ⟨fun k => ⟨rfl, rfl, rfl, rfl, rfl⟩, rfl, rfl, fun a => ⟨rfl, rfl, rfl, rfl, rfl⟩,
    fun a => ⟨rfl, rfl, rfl, rfl, rfl, rfl, rfl⟩, fun a => ?_, rfl, rfl, rfl, fun k => ?_⟩
  · have hst : State.reset.station a = Station.cold := rfl
    have hw : State.reset.wait a = .none := rfl
    rw [hst, hw]
    decide
  · cases k <;> decide

/-- Settles O60: with no lot, lane, chest or bulk, and every queue empty, each law asks for nothing more than canonical
tables. -/
theorem resetKeepsLaws : Obligations.ResetKeepsLaws := by
  have canonical : State.reset.canonical = true := by decide
  have queue (a : Nat) : (State.reset.head a).queue = [] := rfl
  have lot (k : Nat) : State.reset.lot? k = none := rfl
  have lane (n : Nat) : State.reset.lane? n = none := rfl
  have bulk (k : Nat) : State.reset.bulk? k = none := rfl
  have lots : State.reset.lots = [] := rfl
  have pool : State.reset.pool = [] := rfl
  have jobs : State.reset.jobsAgree := by simp [State.jobsAgree, State.soleJobs, queue, lot]
  have tentatives : State.reset.tentativesAgree := by simp [State.tentativesAgree, lot, lane]
  have budget : State.reset.withinBudget := by simp [State.withinBudget, lot, lots]
  refine ⟨canonical, ⟨canonical, ?_⟩, State.netsInBand_reset, ?_, ?_, State.netsInBand_reset.1, jobs, tentatives, budget⟩
  · simp [bulk]
  · simp [State.withinCapacity, queue, pool]
  · simp [State.oneLanePerScale, lane]

end Sys2Proof.Machine
end

section
/-! PROOFS. The lot commands (O25 to O29): each command's checks in their order, and what it leaves when it is taken. -/

namespace Sys2Proof.Machine

/-! ## OPEN_LOT (R5, R6) -/

theorem OpenLotParams.inRange_iff (p : OpenLotParams) : p.inRange = true ↔
    1 ≤ p.invoice ∧ p.invoice ≤ 999999 ∧ textOk 12 p.garden = true ∧ textOk 6 p.grade = true ∧
      p.season ≤ 99 ∧ p.bulk ≤ 15 ∧ p.tareClass ≤ 7 ∧ 1000 ≤ p.declNet ∧ p.declNet ≤ 150000 ∧
      (p.step = 10 ∨ p.step = 50 ∨ p.step = 100 ∨ p.step = 200) ∧ (p.step : Int) ∣ p.declNet ∧ p.margin ≤ 5000 ∧
      1 ≤ p.planned ∧ p.planned ≤ 96 ∧ p.sampleLimit ≤ 2000 ∧ p.overmark ≤ 1 := by
  have multiple (h : 1000 ≤ p.declNet) : p.declNet.toNat % p.step = 0 ↔ (p.step : Int) ∣ p.declNet := by
    rw [← Nat.dvd_iff_mod_eq_zero, ← Int.natCast_dvd_natCast, Int.toNat_of_nonneg (by omega)]
  simp only [OpenLotParams.inRange, Bool.and_eq_true, decide_eq_true_eq, List.contains_iff_mem, List.mem_cons,
    List.not_mem_nil, or_false, beq_iff_eq, Config.bulkSlots, Config.tareClasses, and_assoc, Nat.lt_succ_iff]
  refine and_congr_right fun _ => and_congr_right fun _ => and_congr_right fun _ => and_congr_right fun _ =>
    and_congr_right fun _ => and_congr_right fun _ => and_congr_right fun _ => and_congr_right fun h => ?_
  rw [multiple h]

theorem State.bulkIs_iff {s : State} {k : Nat} {p : Bulk → Bool} :
    s.bulkIs k p = true ↔ ∃ b, s.bulk? k = some b ∧ p b = true := by
  unfold State.bulkIs; cases s.bulk? k <;> simp

theorem openLot_eq (p : OpenLotParams) (s : State) :
    openLot p s =
      if p.slot ≤ 47 then
        if s.lot? p.slot = none then
          if p.inRange = true then
            if s.class? p.tareClass ≠ none then
              if ∃ b, s.bulk? p.bulk = some b ∧ b.grade = p.grade then
                if ∀ e ∈ s.lots, e.2.invoice ≠ p.invoice then
                  if p.planned + s.commitments ≤ 1984 then
                    okay ((s.setLot p.slot (some p.lot)).modBulk p.bulk (fun b => { b with lotRefs := b.lotRefs + 1 })) []
                  else refuse s .noRoom
                else refuse s .duplicate
              else refuse s .badState
            else refuse s .badState
          else refuse s .badValue
        else refuse s .badState
      else refuse s .noSuch := by
  simp only [openLot, checked_cons, checked_nil, Config.lotSlots, Config.commitmentBudget, decide_eq_true_eq,
    Nat.lt_succ_iff, Option.isNone_iff_eq_none, Option.isSome_iff_ne_none, State.bulkIs_iff, beq_iff_eq,
    List.all_eq_true, bne_iff_ne]

/-- Settles O25, check by check of R5. -/
theorem lotIsOpened : Obligations.LotIsOpened := by
  intro s p hs h
  dsimp only
  rw [← OpenLotParams.inRange_iff]
  refine ⟨fun hk => ?_, fun hk hl => ?_, fun hk hl => ⟨fun hr => ?_, fun hr hmiss => ?_, fun b hr hc hb hg =>
    ⟨fun ⟨e, he, hi⟩ => ?_, fun hi hroom => ?_, fun hi hroom => ?_⟩⟩⟩
  · exact exec_refused hs h rfl (by rw [openLot_eq, if_neg (by omega)])
  · exact exec_refused hs h rfl (by rw [openLot_eq, if_pos hk, if_neg hl])
  · exact exec_refused hs h rfl (by rw [openLot_eq, if_pos hk, if_pos hl, if_neg hr])
  · refine exec_refused hs h rfl (?_ : openLot p s = refuse s .badState)
    rw [openLot_eq, if_pos hk, if_pos hl, if_pos hr]
    by_cases hc : s.class? p.tareClass = none
    · rw [if_neg (not_not.mpr hc)]
    · have hgrade := hmiss.resolve_left hc
      rw [if_pos hc, if_neg fun ⟨b, hb, hg⟩ => hgrade b hb hg]
  · exact exec_refused hs h rfl (by
      rw [openLot_eq, if_pos hk, if_pos hl, if_pos hr, if_pos hc, if_pos ⟨b, hb, hg⟩, if_neg fun hall => hall e he hi])
  · exact exec_refused hs h rfl (by
      rw [openLot_eq, if_pos hk, if_pos hl, if_pos hr, if_pos hc, if_pos ⟨b, hb, hg⟩, if_pos hi, if_neg (by omega)])
  · have htaken := (openLot_eq p s).trans (by
      rw [if_pos hk, if_pos hl, if_pos hr, if_pos hc, if_pos ⟨b, hb, hg⟩, if_pos hi, if_pos hroom])
    refine ⟨_, exec_okay hs h rfl htaken, rfl, fun j hj => ?_, fun j hj => ?_, ?_, ?_⟩
    · simp [State.setLot_lot?, hj]
    · simp [State.modBulk_bulk?, hj]
    · simp [hb]
    · simp [OpenLotParams.lot]

/-! ## CLOSE_LOT (R13) -/

theorem Lot.takesChests_iff {l : Lot} : l.takesChests = true ↔ l.state = .opened ∨ l.state = .packing := by
  simp only [Lot.takesChests, Bool.or_eq_true, beq_iff_eq]

/-- The state after the close of the lot in slot `k` (R13). -/
def State.closed (s : State) (k : Nat) : State :=
  ((s.modLot k (fun l => { l with state := .finishing, cause := some .closed })).unmapLanesOf k).evalComplete k

theorem closeLot_eq (k : Nat) (s : State) :
    closeLot k s =
      if k ≤ 47 then
        if s.lotIs k Lot.takesChests = true then
          if (s.lotD k).tentative = 0 then
            if (s.lotD k).accepted ≠ 0 then okay (s.closed k) []
            else refuse s .badState
          else refuse s .inFlight
        else refuse s .badState
      else refuse s .noSuch := by
  simp only [closeLot, checked_cons, checked_nil, Config.lotSlots, decide_eq_true_eq, Nat.lt_succ_iff, beq_iff_eq,
    bne_iff_ne, State.closed]

/-- What the close of a lot leaves: it is FINISHING, or COMPLETE with its notice, and its lanes are unmapped. -/
theorem State.closed_spec {s : State} {k : Nat} {l : Lot} (hl : s.lot? k = some l) :
    let t := s.closed k
    t = { s with lots := t.lots, lanes := t.lanes, waits := t.waits, notices := t.notices } ∧
    (∀ b, t.wait b = if s.feedsFrom k b then .none else s.wait b) ∧
    (∀ j, j ≠ k → t.lot? j = s.lot? j) ∧ (∀ n, t.lane? n = if n ∈ s.feeders k then none else s.lane? n) ∧
    ∃ b : Bool, (b = true ↔ l.outstanding = 0 ∧ s.allMarked k) ∧
      t.lot? k = some { l with
        state := if b then .complete else .finishing
        cause := some .closed
        mappedLanes := l.mappedLanes - (s.feeders k).length } ∧
      s.raisesIf t (b = true) .lotComplete k := by
  unfold State.closed
  dsimp only
  have hu : (s.modLot k (fun l => { l with state := .finishing, cause := some .closed })).lot? k =
      some { l with state := .finishing, cause := some .closed } := by rw [State.modLot_self, hl]; rfl
  have huo (j : Nat) (hj : j ≠ k) : (s.modLot k (fun l => { l with state := .finishing, cause := some .closed })).lot? j =
      s.lot? j := by rw [State.modLot_lot?, if_neg hj]
  have hframe : s.modLot k (fun l => { l with state := .finishing, cause := some .closed }) = { s with
      lots := (s.modLot k (fun l => { l with state := .finishing, cause := some .closed })).lots } := rfl
  generalize s.modLot k (fun l => { l with state := .finishing, cause := some .closed }) = u at *
  have hfeed : u.feeders k = s.feeders k := by rw [hframe]; rfl
  have hfrom (b : Nat) : u.feedsFrom k b = s.feedsFrom k b := by rw [hframe]; rfl
  obtain ⟨vframe, vlane, vwait, vother, -, vlot⟩ := u.unmapLanesOf_spec k
  have vlot := vlot _ hu (by simp)
  rw [hfeed] at vlane vlot
  generalize u.unmapLanesOf k = v at *
  have hmarked : v.allMarked k ↔ s.allMarked k := by rw [vframe, hframe]; rfl
  have tother (j : Nat) (hj : j ≠ k) : (v.evalComplete k).lot? j = s.lot? j := by
    rw [State.evalComplete_lot? v k j hj, vother j hj, huo j hj]
  have tframe := v.evalComplete_eq k
  have vnotice (j : NoticeKind) : v.notice j = s.notice j := by rw [vframe, hframe]; rfl
  refine ⟨?_, fun b => ?_, tother, fun n => ?_, ?_⟩
  · rw [tframe, vframe, hframe]
  · rw [tframe]
    refine (vwait b).trans ?_
    rw [hfrom, hframe]; rfl
  · rw [tframe]
    refine (vlane n).trans ?_
    rw [hframe]; rfl
  · by_cases hc : l.outstanding = 0 ∧ s.allMarked k
    · have hdone := (State.evalComplete_some vlot).1 ⟨rfl, hc.1, hmarked.mpr hc.2⟩
      rw [hdone]
      refine ⟨true, iff_of_true rfl hc, by simp [vlot], fun j => ?_⟩
      rw [State.raise_notice, State.modLot_notice, State.modLot_notice, vnotice, vnotice]
      by_cases hj : j = .lotComplete
      · subst hj; simp
      · simp [hj]
    · have hstays := (State.evalComplete_some vlot).2 fun h => hc ⟨h.2.1, hmarked.mp h.2.2⟩
      rw [hstays]
      refine ⟨false, iff_of_false nofun hc, by simp [vlot], fun j => ?_⟩
      rw [vnotice, if_neg fun h => Bool.false_ne_true h.2]

/-- Settles O26: the checks of R13 in order, and the close. -/
theorem lotIsClosed : Obligations.LotIsClosed := by
  intro s k hs h
  refine ⟨fun hk => ?_, fun hk hno => ?_, fun l hk hl hst => ?_⟩
  · exact exec_refused hs h rfl (by rw [closeLot_eq, if_neg (by omega)])
  · have hshut : ¬ s.lotIs k Lot.takesChests = true := fun ht => by
      obtain ⟨l, hl, ht⟩ := State.lotIs_iff.mp ht
      exact (Lot.takesChests_iff.mp ht).elim (hno l hl).1 (hno l hl).2
    exact exec_refused hs h rfl (by rw [closeLot_eq, if_pos hk, if_neg hshut])
  · have htakes : s.lotIs k Lot.takesChests = true := State.lotIs_iff.mpr ⟨l, hl, Lot.takesChests_iff.mpr hst⟩
    have hclose := closeLot_eq k s
    rw [State.lotD_eq hl, if_pos hk, if_pos htakes] at hclose
    refine ⟨fun ht => ?_, fun ht ha => ?_, fun ht ha => ?_⟩
    · exact exec_refused hs h rfl (hclose.trans (if_neg ht))
    · exact exec_refused hs h rfl (hclose.trans (by rw [if_pos ht, if_neg (not_not.mpr ha)]))
    · obtain ⟨hframe, hwait, hother, hlane, hlot⟩ := State.closed_spec hl
      rw [if_pos ht, if_pos ha] at hclose
      generalize s.closed k = t at *
      exact ⟨_, exec_okay hs h rfl hclose, congrArg (State.setBuffer · _) hframe, hwait, hother, hlane, hlot⟩

/-! ## DECLARE_LOT (R19, R20) -/

theorem declareLot_eq (k : Nat) (s : State) :
    declareLot k s =
      if k ≤ 47 then
        if s.lotIs k (fun l => l.state == .complete) = true then
          if (s.lotD k).outstanding = 0 then
            if (s.acceptedChests k).all (fun e => e.2.mark == .marked) = true then
              okay (s.modLot k (fun l =>
                { l with
                  state := .declared
                  declaration := some (l.declare (s.classD l.tareClass).spread (s.bulkD l.bulk).offRecipe) })) []
            else refuse s .badState
          else refuse s .inFlight
        else refuse s .badState
      else refuse s .noSuch := by
  simp only [declareLot, checked_cons, checked_nil, Config.lotSlots, decide_eq_true_eq, Nat.lt_succ_iff, beq_iff_eq]

theorem Lot.declare_eq {l : Lot} {lo hi : Nat} (hlo : l.minTare = some lo) (hhi : l.maxTare = some hi) (spread : Nat)
    (offRecipe : Bool) : l.declare spread offRecipe =
      let n := l.accepted
      let excess : Int := l.netTotal - n * l.declNet
      { count := n
        declaredNet := l.declNet
        invoiceNet := n * l.declNet - l.sampleTotal
        grossTotal := l.grossTotal
        tareTotal := l.tareTotal
        averageTare := (2 * l.tareTotal + n) / (2 * n)
        excess := excess
        giveaway := (excess * 1000 / (n * l.declNet)).toNat
        tareSpread := hi - lo
        tareMixed := decide (spread < hi - lo)
        offRecipe := offRecipe
        reweighedCount := l.reweighedCount
        sampledCount := l.sampledCount
        sampleTotal := l.sampleTotal } := by
  simp only [Lot.declare, hlo, hhi, Option.getD_some, Nat.cast_mul]

/-- Settles O27: the checks of R19 in order, and the figures of R20. -/
theorem lotIsDeclared : Obligations.LotIsDeclared := by
  intro s k hs h
  have complete {l : Lot} (hl : s.lot? k = some l) (hst : l.state = .complete) :
      s.lotIs k (fun l => l.state == .complete) = true :=
    State.lotIs_iff.mpr ⟨l, hl, beq_iff_eq.mpr hst⟩
  refine ⟨fun hk => ?_, fun hk hno => ?_, fun l hk hl hst => ⟨fun ho => ?_, fun ho hm => ?_⟩,
    fun l c b lo hi hk hl hst ho hm hc hb hlo hhi => ?_⟩
  · exact exec_refused hs h rfl (by rw [declareLot_eq, if_neg (by omega)])
  · have hopen : s.lotIs k (fun l => l.state == .complete) = false :=
      State.lotIs_false fun l hl => beq_eq_false_iff_ne.mpr (hno l hl)
    exact exec_refused hs h rfl (by rw [declareLot_eq, if_pos hk, if_neg (by simp [hopen])])
  · exact exec_refused hs h rfl (by
      rw [declareLot_eq, State.lotD_eq hl, if_pos hk, if_pos (complete hl hst), if_neg ho])
  · exact exec_refused hs h rfl (by
      rw [declareLot_eq, State.lotD_eq hl, if_pos hk, if_pos (complete hl hst), if_pos ho,
        if_neg (fun hall => hm ((s.allMarked_iff k).mp hall))])
  · have htaken := (declareLot_eq k s).trans (by
      rw [State.lotD_eq hl, if_pos hk, if_pos (complete hl hst), if_pos ho, if_pos ((s.allMarked_iff k).mpr hm)])
    refine ⟨_, exec_okay hs h rfl htaken, rfl, fun j hj => ?_, ?_⟩
    · rw [State.setBuffer_lotOf, State.modLot_lot?, if_neg hj]
    · rw [State.setBuffer_lotOf, State.modLot_self, hl, Option.map_some, State.classD_eq hc, State.bulkD_eq hb,
        Lot.declare_eq hlo hhi]

/-! ## RETIRE_LOT (R22, R31) -/

/-- What is found in a sorted table of which some entries have gone. -/
theorem Table.get?_filter {α : Type} {m : Table α} (hm : m.sorted = true) (p : Nat × α → Bool) (i : Nat) :
    Table.get? (m.filter p) i = (m.get? i).filter (fun v => p (i, v)) := by
  have hsorted := Table.sorted_filter p hm
  cases hg : m.get? i with
  | none =>
    cases hf : Table.get? (m.filter p) i with
    | none => rfl
    | some v =>
      have := Table.get?_of_mem hm (List.mem_filter.mp (Table.get?_mem hf)).1
      rw [hg] at this
      cases this
  | some v =>
    by_cases hp : p (i, v) = true
    · rw [Option.filter_some, if_pos hp]
      exact Table.get?_of_mem hsorted (List.mem_filter.mpr ⟨Table.get?_mem hg, hp⟩)
    · rw [Option.filter_some, if_neg hp]
      cases hf : Table.get? (m.filter p) i with
      | none => rfl
      | some w =>
        obtain ⟨hmem, hw⟩ := List.mem_filter.mp (Table.get?_mem hf)
        obtain rfl := Option.some.inj ((Table.get?_of_mem hm hmem).symm.trans hg)
        exact absurd hw hp

theorem State.withoutLot_chest? {s : State} (hs : s.chests.sorted = true) (k id : Nat) :
    (s.withoutLot k).chest? id = ((s.chest? id).filter (fun c => !c.inLot k)).map (Chest.forgetOrigin k) := by
  unfold State.withoutLot State.chest?
  rw [Table.get?_mapVals, Table.get?_filter hs]

theorem retireLot_eq (k : Nat) (s : State) :
    retireLot k s =
      if k ≤ 47 then
        if ∃ l, s.lot? k = some l ∧ (l.state = .declared ∨ (l.state = .opened ∧ l.accepted = 0 ∧ l.tentative = 0)) then
          if (s.lotD k).outstanding = 0 then
            okay ((s.modBulk (s.lotD k).bulk (fun b => { b with lotRefs := b.lotRefs - 1 })).withoutLot k) []
          else refuse s .inFlight
        else refuse s .badState
      else refuse s .noSuch := by
  simp only [retireLot, checked_cons, checked_nil, Config.lotSlots, decide_eq_true_eq, Nat.lt_succ_iff, State.lotIs_iff,
    Bool.or_eq_true, Bool.and_eq_true, beq_iff_eq, and_assoc]
  rfl

/-- Settles O28: the checks of R22 in order; the slot, the lot's chests and the bulk's reference are given up. -/
theorem lotIsRetired : Obligations.LotIsRetired := by
  intro s k hs h
  refine ⟨fun hk => ?_, fun hk hno => ?_, fun l hk hl hmay ho => ?_, fun l hk hl hmay ho hsorted => ?_⟩
  · exact exec_refused hs h rfl (by rw [retireLot_eq, if_neg (by omega)])
  · exact exec_refused hs h rfl (by rw [retireLot_eq, if_pos hk, if_neg fun ⟨l, hl, hm⟩ => hno l hl hm])
  · exact exec_refused hs h rfl (by rw [retireLot_eq, State.lotD_eq hl, if_pos hk, if_pos ⟨l, hl, hmay⟩, if_neg ho])
  · have htaken := (retireLot_eq k s).trans (by rw [State.lotD_eq hl, if_pos hk, if_pos ⟨l, hl, hmay⟩, if_pos ho])
    refine ⟨_, exec_okay hs h rfl htaken, rfl, ?_, fun j hj => ?_, fun j => ?_, fun id => ?_⟩
    · rw [State.setBuffer_lotOf, State.withoutLot_lot?, if_pos rfl]
    · rw [State.setBuffer_lotOf, State.withoutLot_lot?, if_neg hj, State.modBulk_lotOf]
    · rw [State.setBuffer_bulkOf]
      refine (State.modBulk_bulk? s l.bulk j _).trans ?_
      by_cases hj : j = l.bulk
      · subst hj; rfl
      · rw [if_neg hj, if_neg hj]
    · rw [State.setBuffer_chestOf, State.withoutLot_chest? (s := s.modBulk _ _) hsorted, State.modBulk_chestOf]
      cases hc : s.chest? id with
      | none => rfl
      | some c =>
        rw [Option.filter_some]
        unfold Chest.inLot Chest.forgetOrigin
        rcases hp : c.place with j | ⟨j, n, b⟩ | ⟨r, _ | j⟩
        · simp [hp]
        · by_cases hj : j = k <;> simp [hp, hj]
        · simp [hp]
        · by_cases hj : j = k <;> simp [hp, hj]

/-! ## DRAW_SAMPLE (R17, R18) -/

/-- The sample of `mass` grams drawn from the chest `c` of record `id`, of the lot in slot `k`. -/
def State.sampled (s : State) (k id mass : Nat) (c : Chest) : State :=
  (s.modChest id (fun c => { c with sample := c.sample + mass })).modLot k (fun l =>
    { l with
      sampleTotal := l.sampleTotal + mass
      sampledCount := if c.sample = 0 then l.sampledCount + 1 else l.sampledCount })

/-- DRAW_SAMPLE for a chest that is found: checks 4 to 8, once the first three have passed. -/
theorem drawSample_found {s : State} {p : SampleParams} {l : Lot} {id : Nat} {c : Chest} (hk : p.slot ≤ 47)
    (hl : s.lot? p.slot = some l) (hst : l.state = .complete) (h1 : 1 ≤ p.serial) (h2 : p.serial ≤ l.accepted)
    (hf : s.chestBySerial p.slot p.serial = some (id, c)) :
    drawSample p s =
      if c.job = none then
        if c.mark = .marked then
          if 1 ≤ p.mass ∧ c.sample + p.mass ≤ l.sampleLimit ∧ c.sample + p.mass < l.declNet then
            if l.overmark = false ∨ (1 ≤ p.head ∧ p.head ≤ 14 ∧ (s.station p.head).kind = .stencil) then
              if l.overmark = false ∨ (s.head p.head).queue.length < 16 then
                okay (if l.overmark then (s.sampled p.slot id p.mass c).appendJob p.head id .overmark
                  else s.sampled p.slot id p.mass c) []
              else refuse s .noRoom
            else refuse s .badValue
          else refuse s .badValue
        else refuse s .badState
      else refuse s .inFlight := by
  have hslot : p.slot < 48 := by omega
  simp only [drawSample, checked_cons, checked_nil, State.lotD_eq hl, State.lotIs_eq hl, hf, Option.getD_some,
    Option.isSome_some, Config.lotSlots, Config.queueCapacity, hslot, hst, h1, h2, Chest.idleMark, State.isKind,
    State.queueRoom, Bool.and_eq_true, Bool.or_eq_true, Bool.not_eq_true', decide_eq_true_eq, beq_iff_eq,
    Option.isNone_iff_eq_none, and_assoc, decide_true, beq_self_eq_true, Bool.and_true, if_true, State.sampled]

/-- DRAW_SAMPLE refused by one of its first three checks. -/
theorem drawSample_missing {s : State} {p : SampleParams} :
    (47 < p.slot → drawSample p s = refuse s .noSuch) ∧
    (p.slot ≤ 47 → s.lotIs p.slot (fun l => l.state == .complete) = false → drawSample p s = refuse s .badState) ∧
    ∀ l, p.slot ≤ 47 → s.lot? p.slot = some l → l.state = .complete → p.serial = 0 ∨ l.accepted < p.serial →
      drawSample p s = refuse s .noSuch := by
  refine ⟨fun hk => ?_, fun hk hl => ?_, fun l hk hl hst hn => ?_⟩
  · have hslot : ¬ p.slot < 48 := by omega
    simp [drawSample, checked_cons, Config.lotSlots, hslot]
  · have hslot : p.slot < 48 := by omega
    simp [drawSample, checked_cons, Config.lotSlots, hslot, hl]
  · have hslot : p.slot < 48 := by omega
    have hserial : ¬ (1 ≤ p.serial ∧ p.serial ≤ l.accepted) := by omega
    simp [drawSample, checked_cons, Config.lotSlots, hslot, State.lotIs_eq hl, hst, State.lotD_eq hl, hserial]

/-- Settles O29: the checks of R17 in order, and the sample with its overmark job. -/
theorem sampleIsDrawn : Obligations.SampleIsDrawn := by
  intro s p hs h
  obtain ⟨hslot, hstate, hserial⟩ := drawSample_missing (s := s) (p := p)
  refine ⟨fun hk => exec_refused hs h rfl (hslot hk), fun hk hno => ?_,
    fun l hk hl hst hn => exec_refused hs h rfl (hserial l hk hl hst hn),
    fun l id b c hk hl hst h1 h2 hf hc hp => ?_⟩
  · have hopen : s.lotIs p.slot (fun l => l.state == .complete) = false :=
      State.lotIs_false fun l hl => beq_eq_false_iff_ne.mpr (hno l hl)
    exact exec_refused hs h rfl (hstate hk hopen)
  · have hdraw := drawSample_found hk hl hst h1 h2 hf
    dsimp only
    refine ⟨fun hj => ?_, fun hj hm => ?_, fun hj hm hfit => ?_, fun hj hm hfit ho hh => ?_,
      fun hj hm hfit ho hh hq => ?_, fun hj hm hfit hov => ?_⟩
    · exact exec_refused hs h rfl (hdraw.trans (if_neg hj))
    · exact exec_refused hs h rfl (hdraw.trans (by rw [if_pos hj, if_neg hm]))
    · exact exec_refused hs h rfl (hdraw.trans (by rw [if_pos hj, if_pos hm, if_neg hfit]))
    · exact exec_refused hs h rfl (hdraw.trans (by
        rw [if_pos hj, if_pos hm, if_pos hfit, if_neg (by simp [ho, hh])]))
    · exact exec_refused hs h rfl (hdraw.trans (by
        rw [if_pos hj, if_pos hm, if_pos hfit, if_pos (.inr hh), if_neg (by simp [ho]; omega)]))
    · rw [if_pos hj, if_pos hm, if_pos hfit, if_pos (hov.imp_right And.left), if_pos (hov.imp_right And.right)] at hdraw
      have hchest : (s.sampled p.slot id p.mass c).chest? id = some { c with sample := c.sample + p.mass } := by
        simp [State.sampled, hc]
      have hlot : (s.sampled p.slot id p.mass c).lot? p.slot = some { l with
          sampleTotal := l.sampleTotal + p.mass
          sampledCount := if c.sample = 0 then l.sampledCount + 1 else l.sampledCount } := by
        simp [State.sampled, hl]
      have hlots (j : Nat) (hj : j ≠ p.slot) : (s.sampled p.slot id p.mass c).lot? j = s.lot? j := by
        simp [State.sampled, State.modLot_lot?, hj]
      have hchests (j : Nat) (hj : j ≠ id) : (s.sampled p.slot id p.mass c).chest? j = s.chest? j := by
        simp [State.sampled, State.modChest_chest?, hj]
      have hheads (a : Nat) : (s.sampled p.slot id p.mass c).head a = s.head a := by simp [State.sampled]
      have hframe : s.sampled p.slot id p.mass c = { s with
        lots := (s.sampled p.slot id p.mass c).lots, chests := (s.sampled p.slot id p.mass c).chests } := rfl
      generalize s.sampled p.slot id p.mass c = u at *
      by_cases ho : l.overmark = true
      · have hq := State.appendJob_lot? (a := p.head) (kind := .overmark) hchest hp
        rw [if_pos ho] at hdraw
        refine ⟨_, exec_okay hs h rfl hdraw, ?_, fun j hj => ?_, fun j hj => ?_, fun a ha => ?_,
          fun hoff => absurd ho (by simp [hoff]), fun _ => ⟨?_, ?_, ?_⟩⟩
        · rw [u.appendJob_eq p.head id .overmark, hframe]
          rfl
        · exact (hq j).trans ((if_neg hj).trans (hlots j hj))
        · exact (State.appendJob_chest? u p.head id j .overmark).trans ((if_neg hj).trans (hchests j hj))
        · refine (State.appendJob_head u p.head a id .overmark).trans ((if_neg ?_).trans (hheads a))
          exact ha.resolve_right (by simp [ho])
        · refine (hq p.slot).trans ?_
          rw [if_pos rfl, hlot]; rfl
        · refine (State.appendJob_chest? u p.head id id .overmark).trans ?_
          rw [if_pos rfl, hchest]; rfl
        · refine (State.appendJob_head u p.head p.head id .overmark).trans ?_
          rw [if_pos rfl, hheads]
      · rw [if_neg ho] at hdraw
        refine ⟨_, exec_okay hs h rfl hdraw, ?_, hlots, hchests, fun a _ => hheads a, fun _ => ⟨hlot, hchest⟩,
          fun hon => absurd hon ho⟩
        rw [hframe]
        rfl

end Sys2Proof.Machine
end

section
/-! PROOFS. The warm restart (O10), phase by phase: the force hold of the lanes with their tentative chests (R34, R87),
the grants in flight (R69), the marks in flight (R131), the stations with their verification records (R142, R159), and
the two starts put together from them. -/

namespace Sys2Proof.Machine

/-! ## Tentative chests that leave their lots (R34) -/

/-- The tentative chests that lanes name, in the lanes' order. -/
def State.tentatives (s : State) (ns : List Nat) : List Nat := ns.filterMap (fun n => (s.lane? n).bind Lane.tentative)

/-- From `s` to `t` the tentative chests `ids` leave their lots one after the other, for the pool's end while it has room
and for good when it has not. -/
structure State.Settles (s t : State) (ids : List Nat) : Prop where
  pool : t.pool = s.pool ++ ids.take (64 - s.pool.length)
  lot : ∀ k, t.lot? k = (s.lot? k).map (fun l =>
    { l with tentative := l.tentative - (ids.filter (fun id => s.chestIs id (fun c => c.place == .tentative k))).length })
  kept : ∀ id c k, id ∈ ids.take (64 - s.pool.length) → s.chest? id = some c → c.place = .tentative k →
    t.chest? id = some { c with place := .held .restart (some k) }
  freed : ∀ id, id ∈ ids → id ∉ ids.take (64 - s.pool.length) → t.chest? id = none
  other : ∀ id, id ∉ ids → t.chest? id = s.chest? id

namespace State.Settles

theorem nil {s t : State} (hp : t.pool = s.pool) (hl : t.lots = s.lots) (hc : t.chests = s.chests) : s.Settles t [] where
  pool := by simp [hp]
  lot k := by simp [State.lot?, hl]
  kept := by simp
  freed := by simp
  other id _ := by simp [State.chest?, hc]

/-- One chest and then, from where it leaves off, the others. -/
theorem cons {s u t : State} {id : Nat} {ids : List Nat} (first : s.Settles u [id]) (rest : u.Settles t ids)
    (new : id ∉ ids) : s.Settles t (id :: ids) := by
  have same (i : Nat) (hi : i ∈ ids) : u.chest? i = s.chest? i := first.other i (by rintro h; simp_all)
  have own : t.chest? id = u.chest? id := rest.other id new
  have sameKind (k : Nat) : ids.filter (fun i => u.chestIs i (fun c => c.place == .tentative k)) =
      ids.filter (fun i => s.chestIs i (fun c => c.place == .tentative k)) :=
    List.filter_congr fun i hi => by simp [State.chestIs, same i hi]
  have room : ids.take (64 - u.pool.length) = ids.take (64 - s.pool.length - 1) ∨ 64 - s.pool.length = 0 := by
    rw [first.pool]
    rcases Nat.eq_zero_or_pos (64 - s.pool.length) with h | h
    · exact Or.inr h
    · left
      have : [id].take (64 - s.pool.length) = [id] := List.take_of_length_le h
      rw [this, List.length_append, List.length_singleton, Nat.sub_sub]
  have takes : (id :: ids).take (64 - s.pool.length) =
      [id].take (64 - s.pool.length) ++ ids.take (64 - u.pool.length) := by
    rcases h : 64 - s.pool.length with _ | m
    · simp [first.pool, h]
    · obtain h' | h' := room
      · simp [h', h]
      · omega
  have single (i : Nat) : i ∈ [id].take (64 - s.pool.length) → i = id := fun h => by
    simpa using List.mem_of_mem_take h
  refine ⟨?_, fun k => ?_, fun i c k hi hc hk => ?_, fun i hi hn => ?_, fun i hi => ?_⟩
  · rw [rest.pool, takes, first.pool, List.append_assoc]
  · rw [rest.lot, first.lot, sameKind, List.filter_cons, List.filter_cons, List.filter_nil, Option.map_map]
    refine congrArg (Option.map · _) (funext fun l => ?_)
    dsimp only [Function.comp]
    split
    · simp only [List.length_cons, List.length_nil, Nat.sub_sub]
      congr 2; omega
    · rfl
  · rw [takes, List.mem_append] at hi
    rcases hi with hi | hi
    · obtain rfl := single i hi
      rw [own, first.kept i c k hi hc hk]
    · exact rest.kept i c k hi (by rw [same i (List.mem_of_mem_take hi), hc]) hk
  · rw [takes, List.mem_append, not_or] at hn
    rcases List.mem_cons.mp hi with rfl | hi
    · rw [own]; exact first.freed i (by simp) hn.1
    · exact rest.freed i hi hn.2
  · rw [List.mem_cons, not_or] at hi
    rw [rest.other i hi.2, first.other i (by simpa using hi.1)]

end State.Settles

/-- One chest is settled. -/
theorem State.Settles.single {s t : State} {id k : Nat} {c : Chest} (hc : s.chest? id = some c)
    (hk : c.place = .tentative k) (pool : t.pool = if s.poolRoom then s.pool ++ [id] else s.pool)
    (lot : ∀ j, t.lot? j = if j = k then (s.lot? k).map Lot.lessTentative else s.lot? j)
    (chest : ∀ i, t.chest? i = if i = id
      then if s.poolRoom then some { c with place := .held .restart (some k) } else none
      else s.chest? i) : s.Settles t [id] := by
  have takes : [id].take (64 - s.pool.length) = if s.poolRoom then [id] else [] := by
    by_cases h : s.pool.length < 64
    · rw [List.take_of_length_le (by simp; omega)]; simp [State.poolRoom, h]
    · simp [State.poolRoom, h, show 64 - s.pool.length = 0 by omega]
  refine ⟨?_, fun j => ?_, fun i d j hi hd hj => ?_, fun i hi hn => ?_, fun i hi => ?_⟩
  · rw [pool, takes]; split <;> simp
  · have own : s.chestIs id (fun c => c.place == .tentative j) = decide (j = k) := by
      simp [State.chestIs, hc, hk, Bool.beq_eq_decide_eq, eq_comm]
    rw [lot, List.filter_cons, own]
    by_cases h : j = k
    · simp [h]; rfl
    · simp [h]
  · rw [takes] at hi
    split at hi
    · next room =>
      obtain rfl := List.mem_singleton.mp hi
      obtain rfl := Option.some.inj (hc.symm.trans hd)
      obtain rfl := Place.tentative.inj (hk.symm.trans hj)
      rw [chest, if_pos rfl, if_pos room]
    · simp at hi
  · obtain rfl := List.mem_singleton.mp hi
    rw [takes] at hn
    split at hn
    · simp at hn
    · next room => rw [chest, if_pos rfl, if_neg room]
  · rw [chest, if_neg (by simpa using hi)]

/-! ## The force hold of the lanes (R87) -/

/-- A lane after its force hold by a warm restart, its tentative chest settled. -/
def Lane.setDown (l : Lane) : Lane := { l.restarted with tentative := none }

theorem State.settleTentative_eq (s : State) (n id : Nat) (r : HoldReason) :
    let t := s.settleTentative n id r
    t = { s with lanes := t.lanes, lots := t.lots, chests := t.chests, pool := t.pool } := by
  unfold State.settleTentative State.holdChest State.freeChest State.leavePool
  dsimp only
  generalize (s.chestD id).place = p
  cases s.poolRoom <;> cases p <;> rfl

theorem State.restartLane_unmapped {s : State} {n : Nat} (h : s.lane? n = none) : s.restartLane n = s := by
  simp [State.restartLane, h]

theorem State.restartLane_without {s : State} {n : Nat} {l : Lane} (h : s.lane? n = some l) (ht : l.tentative = none) :
    s.restartLane n = s.modLane n Lane.restarted := by
  simp [State.restartLane, h, ht]

theorem State.restartLane_with {s : State} {n id : Nat} {l : Lane} (h : s.lane? n = some l) (ht : l.tentative = some id) :
    s.restartLane n = (s.settleTentative n id .restart).modLane n Lane.restarted := by
  simp [State.restartLane, h, ht]

theorem State.restartLane_eq (s : State) (n : Nat) :
    let t := s.restartLane n
    t = { s with lanes := t.lanes, lots := t.lots, chests := t.chests, pool := t.pool } := by
  dsimp only
  rcases h : s.lane? n with _ | l
  · rw [State.restartLane_unmapped h]
  · rcases ht : l.tentative with _ | id
    · rw [State.restartLane_without h ht]; rfl
    · rw [State.restartLane_with h ht]
      have settled := s.settleTentative_eq n id .restart
      dsimp only at settled
      generalize s.settleTentative n id .restart = u at settled
      rw [settled]; rfl

/-- A lane with no tentative chest leaves lots, chests and the pool alone. -/
theorem State.restartLane_idle {s : State} {n : Nat} (h : (s.lane? n).bind Lane.tentative = none) :
    ∃ lanes, s.restartLane n = { s with lanes := lanes } := by
  rcases hl : s.lane? n with _ | l
  · exact ⟨s.lanes, State.restartLane_unmapped hl⟩
  · exact ⟨_, State.restartLane_without hl (by simpa [hl] using h)⟩

/-- A settled chest's lane no longer names it. -/
theorem State.settleTentative_lane? (s : State) (n id m : Nat) (r : HoldReason) :
    (s.settleTentative n id r).lane? m =
      if m = n then (s.lane? n).map (fun l => { l with tentative := none }) else s.lane? m := by
  unfold State.settleTentative State.holdChest State.freeChest State.leavePool
  dsimp only
  rw [State.modLane_lane?]
  generalize (s.chestD id).place = p
  cases s.poolRoom <;> cases p <;> rfl

theorem State.restartLane_lane? (s : State) (n m : Nat) :
    (s.restartLane n).lane? m = if m = n then (s.lane? n).map Lane.setDown else s.lane? m := by
  rcases h : s.lane? n with _ | l
  · rw [State.restartLane_unmapped h]
    split
    · next e => rw [e, h]; rfl
    · rfl
  · rcases ht : l.tentative with _ | id
    · rw [State.restartLane_without h ht, State.modLane_lane?, h]
      simp [Lane.setDown, Lane.restarted, ht]
    · rw [State.restartLane_with h ht, State.modLane_lane?]
      simp only [State.settleTentative_lane?, if_true, h]
      split <;> rfl

/-- The tentative chest of some lot, not in the pool, is settled. -/
theorem State.settleTentative_settles {s : State} {n id k : Nat} {c : Chest} (hc : s.chest? id = some c)
    (hk : c.place = .tentative k) (hp : id ∉ s.pool) : s.Settles (s.settleTentative n id .restart) [id] := by
  have stays : s.pool.filter (fun j => j != id) = s.pool :=
    List.filter_eq_self.mpr fun j hj => by simpa using ne_of_mem_of_not_mem hj hp
  unfold State.settleTentative State.holdChest State.freeChest State.leavePool
  simp only [State.chestD_eq hc, hk]
  refine .single hc hk ?_ (fun j => ?_) fun i => ?_
  · split
    · rfl
    · exact stays
  · rw [State.modLane_lotOf, State.modLot_lot?]
    cases s.poolRoom <;> rfl
  · rw [State.modLane_chestOf, State.modLot_chestOf]
    cases s.poolRoom <;>
      simp only [if_true, Bool.false_eq_true, if_false, State.setPool_chestOf, State.setChest_chest?]

/-- What the force hold of the lanes of some numbers leaves of them, their tentative chests and those chests' lots. -/
theorem State.restartLanes_settles (ns : List Nat) (s : State) (hns : ns.Nodup) (hids : (s.tentatives ns).Nodup)
    (tentative : ∀ id ∈ s.tentatives ns, id ∉ s.pool ∧ ∃ c k, s.chest? id = some c ∧ c.place = .tentative k) :
    s.Settles (ns.foldl State.restartLane s) (s.tentatives ns) := by
  induction ns generalizing s with
  | nil => exact .nil rfl rfl rfl
  | cons n ns ih =>
    obtain ⟨hn, hns⟩ := List.nodup_cons.mp hns
    have later : (s.restartLane n).tentatives ns = s.tentatives ns :=
      List.filterMap_congr fun m hm => by
        rw [State.restartLane_lane?, if_neg (ne_of_mem_of_not_mem hm hn)]
    rw [List.foldl_cons]
    rcases h : (s.lane? n).bind Lane.tentative with _ | id
    · have ids : s.tentatives (n :: ns) = s.tentatives ns := List.filterMap_cons_none h
      rw [ids] at hids tentative ⊢
      obtain ⟨lanes, e⟩ := State.restartLane_idle h
      have rest := ih (s.restartLane n) hns (by rwa [later]) (by rw [later, e]; exact tentative)
      rw [later] at rest
      rw [e] at rest ⊢
      exact ⟨rest.pool, rest.lot, rest.kept, rest.freed, rest.other⟩
    · have ids : s.tentatives (n :: ns) = id :: s.tentatives ns := List.filterMap_cons_some h
      rw [ids] at hids tentative ⊢
      obtain ⟨new, hids⟩ := List.nodup_cons.mp hids
      obtain ⟨l, hl, ht⟩ := Option.bind_eq_some_iff.mp h
      obtain ⟨out, c, k, hc, hk⟩ := tentative id (by simp)
      have settled := State.settleTentative_settles (n := n) hc hk out
      have first : s.Settles (s.restartLane n) [id] := by
        rw [State.restartLane_with hl ht]
        exact ⟨settled.pool, settled.lot, settled.kept, settled.freed, settled.other⟩
      have rest := ih (s.restartLane n) hns (by rwa [later]) fun i hi => by
        rw [later] at hi
        obtain ⟨hi', c', k', hc', hk'⟩ := tentative i (List.mem_cons_of_mem _ hi)
        have ne : i ≠ id := ne_of_mem_of_not_mem hi new
        refine ⟨?_, c', k', by rwa [first.other i (by simpa using ne)], hk'⟩
        rw [first.pool, List.mem_append, not_or]
        exact ⟨hi', fun hm => ne (List.mem_singleton.mp (List.mem_of_mem_take hm))⟩
      rw [later] at rest
      exact first.cons rest new

/-- The force hold of all lanes changes lanes, lots, chests and the pool. -/
theorem State.restartLanes_eq (ns : List Nat) (s : State) :
    let t := ns.foldl State.restartLane s
    t = { s with lanes := t.lanes, lots := t.lots, chests := t.chests, pool := t.pool } := by
  induction ns generalizing s with
  | nil => rfl
  | cons n ns ih =>
    have first := s.restartLane_eq n
    have rest := ih (s.restartLane n)
    dsimp only at first rest ⊢
    rw [List.foldl_cons]
    generalize s.restartLane n = u at first rest ⊢
    generalize ns.foldl State.restartLane u = t at rest ⊢
    rw [rest, first]

theorem State.restartLanes_lane? (s : State) (n : Nat) : (laneNumbers.foldl State.restartLane s).lane? n =
    if 1 ≤ n ∧ n ≤ 8 then (s.lane? n).map Lane.setDown else s.lane? n := by
  rw [foldl_at (fun _ => True) State.lane? (fun _ l => l.map Lane.setDown) State.restartLane (fun _ _ h => h)
    (fun t m _ => by simp [State.restartLane_lane?]) (fun t m j hj => by simp [State.restartLane_lane?, hj])
    laneNumbers laneNumbers_nodup s trivial n]
  simp only [mem_laneNumbers]

end Sys2Proof.Machine
end

section
/-! PROOFS. The warm restart's other phases (O10): the grants in flight, the marks in flight and the station entries. -/

namespace Sys2Proof.Machine

/-! ## The grants in flight (R69) -/

/-- The bulks with a grant in flight, in ascending slot order. -/
def State.granting (s : State) : List Nat :=
  (s.bulks.filter (fun e => e.2.components.any Component.granted)).map (·.1)

/-- Raises of one kind for some records change the notices alone. -/
theorem State.raises_eq {ι : Type} (k : NoticeKind) (f : ι → Nat) (l : List ι) (s : State) :
    let t := l.foldl (fun t x => t.raise k (some (f x))) s
    t = { s with notices := t.notices } := by
  induction l generalizing s with
  | nil => rfl
  | cons x l ih =>
    have rest := ih (s.raise k (some (f x)))
    dsimp only at rest ⊢
    rw [List.foldl_cons]
    generalize l.foldl (fun (t : State) x => t.raise k (some (f x))) _ = t at rest ⊢
    rw [rest]; rfl

theorem State.raises_notice {ι : Type} (k j : NoticeKind) (f : ι → Nat) (l : List ι) (s : State) :
    (l.foldl (fun t x => t.raise k (some (f x))) s).notice j =
      if j = k then (s.notice k).raisedFor (l.map f) else s.notice j := by
  induction l generalizing s with
  | nil => split <;> simp_all [Notice.raisedFor]
  | cons x l ih =>
    rw [List.foldl_cons, ih, State.raise_self, State.raise_notice]
    split <;> rfl

theorem State.restartBulks_eq (s : State) :
    s.restartBulks = { s with bulks := s.bulks.mapVals (fun _ b => b.restarted), notices := s.restartBulks.notices } :=
  State.raises_eq .chargeUncertain Prod.fst _ { s with bulks := s.bulks.mapVals (fun _ b => b.restarted) }

theorem State.restartBulks_bulk? (s : State) (k : Nat) : s.restartBulks.bulk? k = (s.bulk? k).map Bulk.restarted := by
  rw [State.restartBulks_eq]
  exact Table.get?_mapVals (fun _ b => b.restarted) s.bulks k

theorem State.restartBulks_notice (s : State) (k : NoticeKind) : s.restartBulks.notice k =
    if k = .chargeUncertain then (s.notice .chargeUncertain).raisedFor s.granting else s.notice k :=
  State.raises_notice .chargeUncertain k Prod.fst _ { s with bulks := s.bulks.mapVals (fun _ b => b.restarted) }

/-! ## The marks in flight (R131) -/

/-- A head after a warm restart. -/
def Head.restarted (h : Head) : Head :=
  if h.message.isSome then { h with interval := none, message := none, reply := none, state := .paused .restart, oneMark := false }
  else { h with interval := none }

/-- The chest whose mark a restart cuts off at the head. -/
def Head.cutChest (h : Head) : Option Nat := if h.message.isSome then h.queue.head?.map Job.chest else none

theorem State.cutMark_idle {s : State} {a : Nat} {r : PauseReason} (h : (s.head a).message.isSome = false) :
    s.cutMark a r = s := by
  simp [State.cutMark, h]

theorem State.cutMark_eq (s : State) (a : Nat) (r : PauseReason) :
    let t := s.cutMark a r
    t = { s with heads := t.heads, chests := t.chests, notices := t.notices } := by
  unfold State.cutMark
  dsimp only
  split
  · generalize (s.head a).queue = q
    cases q <;> rfl
  · rfl

theorem State.cutMark_head (s : State) (a b : Nat) (r : PauseReason) : (s.cutMark a r).head b =
    if b = a ∧ (s.head a).message.isSome then
      { s.head a with message := none, reply := none, state := .paused r, oneMark := false }
    else s.head b := by
  unfold State.cutMark
  dsimp only
  split
  · next h =>
    simp only [State.raise_head, h, and_true]
    split <;> simp [State.setHead_head]
  · next h => simp [h]

theorem State.cutMark_chest? (s : State) (a id : Nat) (r : PauseReason) : (s.cutMark a r).chest? id =
    if (s.head a).cutChest = some id then (s.chest? id).map (fun c => { c with mark := .uncertain }) else s.chest? id := by
  unfold State.cutMark Head.cutChest
  dsimp only
  split
  · rw [State.raise_chestOf]
    rcases (s.head a).queue with _ | ⟨j, q⟩
    · simp
    · simp only [State.modChest_chest?, State.setHead_chestOf, List.head?_cons, Option.map_some, Option.some.injEq,
        eq_comm (a := id)]
      split
      · next e => rw [e]
      · rfl
  · simp

theorem State.cutMark_notice (s : State) (a : Nat) (r : PauseReason) (k : NoticeKind) : (s.cutMark a r).notice k =
    if k = .markUncertain ∧ (s.head a).message.isSome then (s.notice k).raised (some a) else s.notice k := by
  unfold State.cutMark
  dsimp only
  split
  · next h =>
    simp only [State.raise_notice, h, and_true]
    rcases (s.head a).queue with _ | ⟨j, q⟩ <;> split <;> simp_all
  · next h => simp [h]

theorem State.restartHead_head (s : State) (a b : Nat) :
    (s.restartHead a).head b = if b = a then (s.head a).restarted else s.head b := by
  unfold State.restartHead Head.restarted
  rw [State.modHead_head, State.cutMark_head, State.cutMark_head]
  by_cases hb : b = a
  · simp only [hb, true_and, if_true]
    split <;> rfl
  · simp [hb]

theorem State.restartHead_chest? (s : State) (a id : Nat) : (s.restartHead a).chest? id =
    if (s.head a).cutChest = some id then (s.chest? id).map (fun c => { c with mark := .uncertain }) else s.chest? id :=
  s.cutMark_chest? a id .restart

theorem State.restartHead_notice (s : State) (a : Nat) (k : NoticeKind) : (s.restartHead a).notice k =
    if k = .markUncertain ∧ (s.head a).message.isSome then (s.notice k).raised (some a) else s.notice k :=
  s.cutMark_notice a .restart k

/-- The restart of the heads changes heads, chests and notices. -/
theorem State.restartHeads_eq (as : List Nat) (s : State) :
    let t := as.foldl State.restartHead s
    t = { s with heads := t.heads, chests := t.chests, notices := t.notices } := by
  induction as generalizing s with
  | nil => rfl
  | cons a as ih =>
    have first := s.cutMark_eq a .restart
    have rest := ih (s.restartHead a)
    dsimp only at first rest ⊢
    rw [List.foldl_cons]
    unfold State.restartHead at rest ⊢
    generalize s.cutMark a .restart = u at first rest ⊢
    generalize as.foldl State.restartHead _ = t at rest ⊢
    rw [rest, first]; rfl

theorem State.restartHeads_head (s : State) (a : Nat) : (addresses.foldl State.restartHead s).head a =
    if 1 ≤ a ∧ a ≤ 14 then (s.head a).restarted else s.head a := by
  rw [foldl_at (fun _ => True) State.head (fun _ h => h.restarted) State.restartHead (fun _ _ h => h)
    (fun t b _ => by simp [State.restartHead_head]) (fun t b c hc => by simp [State.restartHead_head, hc])
    addresses addresses_nodup s trivial a]
  simp only [mem_addresses]

theorem State.restartHeads_chest? (as : List Nat) (hn : as.Nodup) (s : State) (id : Nat) :
    (as.foldl State.restartHead s).chest? id =
      if ∃ a ∈ as, (s.head a).cutChest = some id then (s.chest? id).map (fun c => { c with mark := .uncertain })
      else s.chest? id := by
  induction as generalizing s with
  | nil => simp
  | cons a as ih =>
    obtain ⟨ha, hn⟩ := List.nodup_cons.mp hn
    have later : (∃ b ∈ as, ((s.restartHead a).head b).cutChest = some id) ↔ ∃ b ∈ as, (s.head b).cutChest = some id :=
      exists_congr fun b => and_congr_right fun hb => by
        rw [State.restartHead_head, if_neg (ne_of_mem_of_not_mem hb ha)]
    simp only [List.foldl_cons, ih hn, later, State.restartHead_chest?, List.exists_mem_cons_iff]
    by_cases own : (s.head a).cutChest = some id
    · by_cases other : ∃ b ∈ as, (s.head b).cutChest = some id
      · simp [own, other, Option.map_map, Function.comp_def]
      · simp [own, other]
    · simp [own]

theorem State.restartHeads_notice (as : List Nat) (hn : as.Nodup) (s : State) (k : NoticeKind) :
    (as.foldl State.restartHead s).notice k =
      if k = .markUncertain then (s.notice k).raisedFor (as.filter (fun a => (s.head a).message.isSome)) else s.notice k := by
  induction as generalizing s with
  | nil => simp [Notice.raisedFor]
  | cons a as ih =>
    obtain ⟨ha, hn⟩ := List.nodup_cons.mp hn
    have later : as.filter (fun b => ((s.restartHead a).head b).message.isSome) =
        as.filter (fun b => (s.head b).message.isSome) :=
      List.filter_congr fun b hb => by rw [State.restartHead_head, if_neg (ne_of_mem_of_not_mem hb ha)]
    rw [List.foldl_cons, ih hn, later, State.restartHead_notice, List.filter_cons]
    by_cases hk : k = .markUncertain
    · by_cases hm : (s.head a).message.isSome
      · simp [hk, hm, Notice.raisedFor]
      · simp [hk, hm]
    · simp [hk]

/-- Heads with no message in flight are left but for their interval. -/
theorem State.restartHeads_idle {s : State} (h : ∀ a, 1 ≤ a → a ≤ 14 → (s.head a).message = none) :
    ∃ heads, addresses.foldl State.restartHead s = { s with heads := heads } := by
  have kept : ∀ t : State, (∃ heads, t = { s with heads := heads }) ∧
      (∀ a ∈ addresses, (t.head a).message = none) →
      ∀ a ∈ addresses, (∃ heads, t.restartHead a = { s with heads := heads }) ∧
        ∀ b ∈ addresses, ((t.restartHead a).head b).message = none := by
    rintro t ⟨⟨heads, rfl⟩, hm⟩ a ha
    refine ⟨⟨_, by rw [State.restartHead, State.cutMark_idle (by simp [hm a ha])]; rfl⟩, fun b hb => ?_⟩
    rw [State.restartHead_head]
    split
    · simp [Head.restarted, hm a ha]
    · exact hm b hb
  exact (foldl_keeps (fun t => (∃ heads, t = { s with heads := heads }) ∧ ∀ a ∈ addresses, (t.head a).message = none)
    State.restartHead addresses (fun t a ha ht => kept t ht a ha) s
    ⟨⟨s.heads, rfl⟩, fun a ha => by obtain ⟨h1, h2⟩ := (mem_addresses a).mp ha; exact h a h1 h2⟩).1

/-! ## The station entries and their verification records (R142, R159) -/

/-- The restart of one station entry and its verification record. -/
def State.restartStation (s : State) (a : Nat) : State :=
  (s.setVerification a (s.verification a).restarted).setStation a (s.station a).restarted

theorem State.restartStations_eq (as : List Nat) (s : State) :
    let t := as.foldl State.restartStation s
    t = { s with stations := t.stations, verifications := t.verifications } := by
  induction as generalizing s with
  | nil => rfl
  | cons a as ih =>
    have rest := ih (s.restartStation a)
    dsimp only at rest ⊢
    rw [List.foldl_cons]
    generalize as.foldl State.restartStation _ = t at rest ⊢
    rw [rest]; rfl

theorem State.restartStations_station (s : State) (a : Nat) : (addresses.foldl State.restartStation s).station a =
    if 1 ≤ a ∧ a ≤ 14 then (s.station a).restarted else s.station a := by
  rw [foldl_at (fun _ => True) State.station (fun _ v => v.restarted) State.restartStation (fun _ _ h => h)
    (fun t b _ => by simp [State.restartStation])
    (fun t b c hc => by simp [State.restartStation, State.setStation_station, hc]) addresses addresses_nodup s trivial a]
  simp only [mem_addresses]

theorem State.restartStations_verification (s : State) (a : Nat) :
    (addresses.foldl State.restartStation s).verification a =
      if 1 ≤ a ∧ a ≤ 14 then (s.verification a).restarted else s.verification a := by
  rw [foldl_at (fun _ => True) State.verification (fun _ v => v.restarted) State.restartStation (fun _ _ h => h)
    (fun t b _ => by simp [State.restartStation])
    (fun t b c hc => by simp [State.restartStation, State.setVerification_verification, hc])
    addresses addresses_nodup s trivial a]
  simp only [mem_addresses]

end Sys2Proof.Machine
end

section
/-! PROOFS. The warm restart put together (O10): the two starts that keep records, and their two causes. -/

namespace Sys2Proof.Machine

/-! ## The work in flight, resolved -/

theorem State.resolved_stages (s : State) : s.resolved = addresses.foldl State.restartStation
    { addresses.foldl State.restartHead (laneNumbers.foldl State.restartLane s).restartBulks with
      waits := [], cycle := none, linkOut := [] } := rfl

/-- What a warm restart leaves of the work in flight. `u` stands for the state after the force hold of the lanes. -/
theorem State.resolved_spec (s : State) :
    let t := s.resolved
    t = { s with
      waits := [], cycle := none, linkOut := [], lanes := t.lanes, lots := t.lots, chests := t.chests, pool := t.pool
      bulks := t.bulks, heads := t.heads, stations := t.stations, verifications := t.verifications
      notices := t.notices } ∧
    (∀ a, t.station a = if 1 ≤ a ∧ a ≤ 14 then (s.station a).restarted else s.station a) ∧
    (∀ a, t.verification a = if 1 ≤ a ∧ a ≤ 14 then (s.verification a).restarted else s.verification a) ∧
    (∀ n, t.lane? n = if 1 ≤ n ∧ n ≤ 8 then (s.lane? n).map Lane.setDown else s.lane? n) ∧
    (∀ a, t.head a = if 1 ≤ a ∧ a ≤ 14 then (s.head a).restarted else s.head a) ∧
    (∀ k, t.bulk? k = (s.bulk? k).map Bulk.restarted) ∧
    (∀ k, t.notice k =
      if k = .markUncertain then (s.notice k).raisedFor (addresses.filter (fun a => (s.head a).message.isSome))
      else if k = .chargeUncertain then (s.notice .chargeUncertain).raisedFor s.granting
      else s.notice k) ∧
    ∃ u, u = laneNumbers.foldl State.restartLane s ∧ t.pool = u.pool ∧ (∀ k, t.lot? k = u.lot? k) ∧
      ∀ id, t.chest? id = if ∃ a ∈ addresses, (s.head a).cutChest = some id
        then (u.chest? id).map (fun c => { c with mark := .uncertain }) else u.chest? id := by
  dsimp only
  rw [State.resolved_stages]
  have u0 := State.restartLanes_eq laneNumbers s
  have uLane := s.restartLanes_lane?
  generalize laneNumbers.foldl State.restartLane s = u at u0 uLane ⊢
  dsimp only at u0
  have uHead (a : Nat) : u.head a = s.head a := by rw [u0]; rfl
  have uBulk (k : Nat) : u.bulk? k = s.bulk? k := by rw [u0]; rfl
  have uGranting : u.granting = s.granting := by rw [u0]; rfl
  have uNotice (k : NoticeKind) : u.notice k = s.notice k := by rw [u0]; rfl
  have v0 := u.restartBulks_eq
  have vBulk := u.restartBulks_bulk?
  have vNotice := u.restartBulks_notice
  generalize u.restartBulks = v at v0 vBulk vNotice ⊢
  have vHead (a : Nat) : v.head a = s.head a := by rw [v0]; exact uHead a
  have vChest (i : Nat) : v.chest? i = u.chest? i := by rw [v0]; rfl
  have w0 := State.restartHeads_eq addresses v
  have wHead := v.restartHeads_head
  have wChest := State.restartHeads_chest? addresses addresses_nodup v
  have wNotice := State.restartHeads_notice addresses addresses_nodup v
  generalize addresses.foldl State.restartHead v = w at w0 wHead wChest wNotice ⊢
  dsimp only at w0
  simp only [vHead, vChest, vNotice, uNotice, uGranting] at wHead wChest wNotice
  have x0 := State.restartStations_eq addresses { w with waits := [], cycle := none, linkOut := [] }
  have xStation := State.restartStations_station { w with waits := [], cycle := none, linkOut := [] }
  have xVerification := State.restartStations_verification { w with waits := [], cycle := none, linkOut := [] }
  generalize addresses.foldl State.restartStation _ = x at x0 xStation xVerification ⊢
  dsimp only at x0
  have whole : x = { s with
      waits := [], cycle := none, linkOut := [], lanes := x.lanes, lots := x.lots, chests := x.chests, pool := x.pool
      bulks := x.bulks, heads := x.heads, stations := x.stations, verifications := x.verifications
      notices := x.notices } := by
    rw [x0, w0, v0, u0]
  have wStation (a : Nat) : w.station a = s.station a := by rw [w0, v0, u0]; rfl
  have wVerification (a : Nat) : w.verification a = s.verification a := by rw [w0, v0, u0]; rfl
  refine ⟨whole, fun a => ?_, fun a => ?_, fun n => ?_, fun a => ?_, fun k => ?_, fun k => ?_, u, rfl, ?_, fun k => ?_,
    fun i => ?_⟩
  · rw [← wStation]; exact xStation a
  · rw [← wVerification]; exact xVerification a
  · rw [← uLane, x0, w0, v0]; rfl
  · rw [← wHead, x0]; rfl
  · rw [← uBulk, ← vBulk, x0, w0]; rfl
  · rw [x0]
    refine (wNotice k).trans ?_
    by_cases hk : k = .markUncertain
    · simp [hk]
    · simp [hk]
  · rw [x0, w0, v0]
  · rw [x0, w0, v0]; rfl
  · rw [← wChest, x0]; rfl

/-! ## The two starts -/

theorem pwrgoodRise_starts {s : State} (hp : s.part = .retain) (hw : s.pwrgood = false) (hr : s.resetAsserted = false) :
    pwrgoodRise s = ({ s with pwrgood := true } : State).start .power := by
  simp [pwrgoodRise, hp, hw, hr]

theorem resetRelease_starts {s : State} (hp : s.part = .retain) (hw : s.pwrgood = true) (hr : s.resetAsserted = true) :
    resetRelease s = ({ s with resetAsserted := false } : State).start .reset := by
  simp [resetRelease, hp, hw, hr]

/-- The cause is the one thing two warm starts from one state can differ in. -/
theorem State.start_cause {s : State} (h : s.marker ≠ none) (c d : RestartCause) :
    s.start d = { s.start c with restartCause := d } := by
  unfold State.start
  split
  · next e => exact absurd e h
  · unfold State.warmStart
    dsimp only

/-- A start in RETAIN with the marker RUNNING: the work in flight is resolved and RESTARTED is raised. -/
theorem State.start_running {s : State} (h : s.marker = some .running) (c : RestartCause) : s.start c =
    { s.resolved.raise .restarted (some 1) with
      part := .running, purgeTimer := none, noticesAtPurge := 0, marker := none, restartKind := .warm, restartCause := c
      purgeFinished := false, buffer := .empty, sdo := [] } := by
  unfold State.start
  rw [h]
  rfl

/-- A start in RETAIN with the marker PURGING: the purge is finished first. -/
theorem State.start_purging {s : State} (h : s.marker = some .purging) (c : RestartCause) : s.start c =
    { s.purged.resolved.raise .restarted (some 1) with
      part := .running, purgeTimer := none, noticesAtPurge := 0, marker := none, restartKind := .warm, restartCause := c
      purgeFinished := true, buffer := .empty, sdo := [] } := by
  unfold State.start
  rw [h]
  rfl

/-- What the end of a purge leaves (R132, R180). -/
theorem State.purged_spec (s : State) :
    let t := s.purged
    t = { s with
      lots := [], chests := [], pool := [], bulks := [], lanes := [], waits := [], part := .running, purgeTimer := none
      noticesAtPurge := 0, heads := t.heads, notices := t.notices } ∧
    (∀ a, t.head a = if 1 ≤ a ∧ a ≤ 14 then (s.head a).purged else s.head a) ∧
    ∀ k, t.notice k = if k = .purgeDone then (s.notice .purgeDone).raised none else s.notice k := by
  obtain ⟨heads, e, hh⟩ := foldl_modHead Head.purged
    { s with lots := [], chests := [], pool := [], bulks := [], lanes := [], waits := [] }
  have whole : s.purged = { ({ s with
      lots := [], chests := [], pool := [], bulks := [], lanes := [], waits := [], heads := heads } : State).raise
        .purgeDone none with part := .running, purgeTimer := none, noticesAtPurge := 0 } := by
    unfold State.purged State.emptied
    rw [e]
  dsimp only
  rw [whole]
  exact ⟨rfl, hh, fun k => State.raise_notice _ .purgeDone k none⟩

/-- With no record of a lane or a bulk and no message in flight, nothing is in flight but the calls and the words of the
stations. -/
theorem State.resolved_of_empty {s : State} (hl : s.lanes = []) (hb : s.bulks = [])
    (hm : ∀ a, 1 ≤ a → a ≤ 14 → (s.head a).message = none) :
    let t := s.resolved
    t = { s with
      waits := [], cycle := none, linkOut := [], heads := t.heads, stations := t.stations
      verifications := t.verifications } := by
  have lanes : laneNumbers.foldl State.restartLane s = s :=
    foldl_keeps (fun t => t = s) State.restartLane laneNumbers
      (fun t n _ ht => by rw [ht, State.restartLane_unmapped (by simp [State.lane?, hl])]) s rfl
  have bulks : s.restartBulks = s := by
    unfold State.restartBulks
    rw [hb]
    change ({ s with bulks := [] } : State) = s
    rw [← hb]
  obtain ⟨heads, e⟩ := State.restartHeads_idle hm
  dsimp only
  rw [State.resolved_stages, lanes, bulks, e]
  have last := State.restartStations_eq addresses
    { s with heads := heads, waits := [], cycle := none, linkOut := [] }
  dsimp only at last ⊢
  generalize addresses.foldl State.restartStation _ = t at last ⊢
  rw [last]

/-- A verification record after a warm restart, state by state (R142). -/
theorem Verification.restarted_eq (v : Verification) : v.restarted = match v.state with
    | .at (.verified _) => { v with state := .at (.due (.running (v.grace * 60000))) }
    | .testing _ _ _ => { v with state := .at .unverified, abilities := none }
    | _ => v := by
  unfold Verification.restarted Verification.testCut minutes
  rcases v.state with (_ | _ | _ | _) | _ <;> rfl

end Sys2Proof.Machine
end

section
/-! PROOFS. The warm restart (O10): the statement from its three parts. -/

namespace Sys2Proof.Machine

theorem Head.cutChest_iff {h : Head} {id : Nat} :
    h.cutChest = some id ↔ h.message.isSome = true ∧ ∃ j rest, h.queue = j :: rest ∧ j.chest = id := by
  unfold Head.cutChest
  rcases h.queue with _ | ⟨j, q⟩ <;> simp

theorem Component.loseGrant_eq (c : Component) : c.loseGrant = match c.claim with
    | .grant g => { c with claim := .uncertain g }
    | _ => c := by
  rcases c with ⟨_, _, _, _, _, _, claim⟩
  cases claim <;> rfl

theorem Head.purged_restarted (h : Head) : h.purged.restarted = { h with
    queue := [], interval := none, message := none, reply := none
    state := match h.state with
      | .paused r => .paused r
      | .pausePending => .paused .host
      | _ => .idle } := by
  unfold Head.restarted Head.purged
  cases h.state <;> rfl

theorem pwrgoodRise_running {s : State} (hp : s.part = .retain) (hm : s.marker = some .running)
    (hw : s.pwrgood = false) (hr : s.resetAsserted = false) : pwrgoodRise s =
      { ({ s with pwrgood := true } : State).resolved.raise .restarted (some 1) with
        part := .running, purgeTimer := none, noticesAtPurge := 0, marker := none, restartKind := .warm
        restartCause := .power, purgeFinished := false, buffer := .empty, sdo := [] } := by
  rw [pwrgoodRise_starts hp hw hr, State.start_running (by exact hm)]

theorem pwrgoodRise_purging {s : State} (hp : s.part = .retain) (hm : s.marker = some .purging)
    (hw : s.pwrgood = false) (hr : s.resetAsserted = false) : pwrgoodRise s =
      { ({ s with pwrgood := true } : State).purged.resolved.raise .restarted (some 1) with
        part := .running, purgeTimer := none, noticesAtPurge := 0, marker := none, restartKind := .warm
        restartCause := .power, purgeFinished := true, buffer := .empty, sdo := [] } := by
  rw [pwrgoodRise_starts hp hw hr, State.start_purging (by exact hm)]

/-- Settles O10, phase by phase: the warm start is the resolved state with RESTARTED raised, and its lanes' tentative chests,
its bulks, heads, stations and verification records are those that `State.resolved_spec` gives. -/
theorem warmRestartKeepsRecords : Obligations.WarmRestartKeepsRecords := by
  unfold Obligations.WarmRestartKeepsRecords
  dsimp only
  refine ⟨fun s hp hm hw hr => ⟨pwrgoodRise s, rfl, ?_⟩, fun s hp hm hw hr => ⟨pwrgoodRise s, rfl, ?_⟩,
    fun s t hp hm hw hr ht => ?_⟩
  · have settled := ({ s with pwrgood := true } : State).restartLanes_settles laneNumbers
    obtain ⟨frame, station, verification, lane, head, bulk, notice, u, hu, pool, lot, chest⟩ :=
      ({ s with pwrgood := true } : State).resolved_spec
    rw [pwrgoodRise_running hp hm hw hr]
    rw [← hu] at settled
    generalize ({ s with pwrgood := true } : State).resolved = r at *
    refine ⟨?_, station, fun a => ?_, lane, head, fun k => ?_, fun k h1 h2 h3 => ?_, ?_, ?_, ?_, ?_⟩
    · rw [frame]; rfl
    · exact (verification a).trans (if_congr Iff.rfl (Verification.restarted_eq _) rfl)
    · exact (bulk k).trans (congrArg (Option.map · _) (funext fun b =>
        congrArg (fun f => { b with components := b.components.map f }) (funext Component.loseGrant_eq)))
    · exact (State.raise_notice _ _ _ _).trans (by rw [if_neg h1, notice, if_neg h2, if_neg h3]; rfl)
    · exact (State.raise_notice _ _ _ _).trans (by rw [if_pos rfl, notice, if_neg (by decide), if_neg (by decide)]; rfl)
    · exact (State.raise_notice _ _ _ _).trans (by rw [if_neg (by decide), notice, if_pos rfl]; rfl)
    · exact (State.raise_notice _ _ _ _).trans
        (by rw [if_neg (by decide), notice, if_neg (by decide), if_pos rfl]; rfl)
    · intro hids tentative
      have front (id : Nat) : (∃ a ∈ addresses, (s.head a).cutChest = some id) ↔
          ∃ a, 1 ≤ a ∧ a ≤ 14 ∧ (s.head a).message.isSome = true ∧ ∃ j rest, (s.head a).queue = j :: rest ∧ j.chest = id := by
        simp only [mem_addresses, Head.cutChest_iff, and_assoc]
      have after : s.Settles u (s.tentatives laneNumbers) :=
        let h := settled laneNumbers_nodup hids fun id hi => ⟨(tentative id hi).1, (tentative id hi).2.2⟩
        ⟨h.pool, h.lot, h.kept, h.freed, h.other⟩
      have uncut (id : Nat) (h : ¬ _) : r.chest? id = u.chest? id := (chest id).trans (if_neg (mt (front id).mp h))
      have cut (id : Nat) (h : _) : r.chest? id = (u.chest? id).map (fun c => { c with mark := .uncertain }) :=
        (chest id).trans (if_pos ((front id).mpr h))
      refine ⟨pool.trans after.pool, fun k => (lot k).trans (after.lot k), fun id =>
        ⟨fun c k hi hc hk => ?_, fun hi hn => ?_, fun hi hf => ?_, fun hi hf => ?_⟩⟩
      · exact (uncut id (tentative id (List.mem_of_mem_take hi)).2.1).trans (after.kept id c k hi hc hk)
      · exact (uncut id (tentative id hi).2.1).trans (after.freed id hi hn)
      · exact (cut id hf).trans (congrArg _ (after.other id hi))
      · exact (uncut id hf).trans (after.other id hi)
  · obtain ⟨emptied, purgedHead, purgedNotice⟩ := ({ s with pwrgood := true } : State).purged_spec
    rw [pwrgoodRise_purging hp hm hw hr]
    generalize ({ s with pwrgood := true } : State).purged = v at *
    have lanes : v.lanes = [] := by rw [emptied]
    have bulks : v.bulks = [] := by rw [emptied]
    have message (a : Nat) (h1 : 1 ≤ a) (h2 : a ≤ 14) : (v.head a).message = none := by
      rw [purgedHead, if_pos ⟨h1, h2⟩]; rfl
    have vStation (a : Nat) : v.station a = s.station a := by rw [emptied]; rfl
    have vVerification (a : Nat) : v.verification a = s.verification a := by rw [emptied]; rfl
    have frame := State.resolved_of_empty lanes bulks message
    obtain ⟨-, station, verification, -, head, -⟩ := v.resolved_spec
    generalize v.resolved = r at *
    have notice (k : NoticeKind) : r.notice k = v.notice k := by rw [frame]; rfl
    simp only [vStation, vVerification] at station verification
    refine ⟨?_, station, fun a => ?_, fun a => ?_, fun k h1 h2 => ?_, ?_, ?_⟩
    · rw [frame, emptied]; rfl
    · exact (verification a).trans (if_congr Iff.rfl (Verification.restarted_eq _) rfl)
    · refine (head a).trans ?_
      rw [purgedHead]
      split
      · exact Head.purged_restarted _
      · rfl
    · exact (State.raise_notice _ _ _ _).trans (by rw [if_neg h1, notice, purgedNotice, if_neg h2]; rfl)
    · exact (State.raise_notice _ _ _ _).trans (by rw [if_neg (by decide), notice, purgedNotice, if_pos rfl]; rfl)
    · exact (State.raise_notice _ _ _ _).trans
        (by rw [if_pos rfl, notice, purgedNotice, if_neg (by decide)]; rfl)
  · have rise : pwrgoodRise { s with pwrgood := false, resetAsserted := false } = t := Host.Outcome.next.inj ht
    have same : ({ s with pwrgood := true, resetAsserted := false } : State) = { s with resetAsserted := false } := by
      rw [← hw]
    rw [pwrgoodRise_starts (by exact hp) rfl rfl, same] at rise
    change Host.Outcome.next (resetRelease s) = _
    rw [resetRelease_starts hp hw hr, ← rise]
    exact congrArg _ (State.start_cause (by exact hm) .power .reset)

end Sys2Proof.Machine
end

section
/-! PROOFS. The chests that leave the hold pool or their lot (O39, O38): VOID_CHEST of a held chest, RETURN_CHEST and
VOID_CHEST of a lot's last-serial chest. -/

namespace Sys2Proof.Machine

/-! ## Records of chests held and freed (R30, R35) -/

theorem State.holdChest_chest? (s : State) (id j : Nat) (c : Chest) (r : HoldReason) (o : Option Nat) :
    (s.holdChest id c r o).chest? j = if j = id then some { c with place := .held r o } else s.chest? j :=
  State.setChest_chest? s id j (some { c with place := .held r o })

theorem State.freeChest_chest? (s : State) (id j : Nat) :
    (s.freeChest id).chest? j = if j = id then none else s.chest? j := State.setChest_chest? s id j none

/-! ## Checks 1 and 2 of R42 -/

theorem State.chestIs_iff {s : State} {id : Nat} {p : Chest → Bool} :
    s.chestIs id p = true ↔ ∃ c, s.chest? id = some c ∧ p c = true := by
  unfold State.chestIs; cases s.chest? id <;> simp

theorem State.chestIs_false {s : State} {id : Nat} {p : Chest → Bool}
    (h : ∀ c, s.chest? id = some c → p c = false) : s.chestIs id p = false := by
  unfold State.chestIs
  cases hc : s.chest? id with
  | none => rfl
  | some c => exact h c hc

theorem Place.isAccepted_iff {p : Place} : p.isAccepted = true ↔ ∃ k n b, p = .accepted k n b := by
  cases p <;> simp [Place.isAccepted]

theorem Place.isHeld_iff {p : Place} : p.isHeld = true ↔ ∃ r o, p = .held r o := by
  cases p <;> simp [Place.isHeld]

/-- The first two checks of a command that names an accepted chest (R42). -/
theorem checked_isAccepted (s : State) (id : Nat) (checks : List (Bool × Status)) (effect : State × Reply) :
    checked s (s.isAccepted id ++ checks) effect =
      if id ≤ 2047 then
        if s.chestIs id (fun c => c.place.isAccepted) = true then checked s checks effect
        else refuse s .badState
      else refuse s .noSuch := by
  simp only [State.isAccepted, List.cons_append, List.nil_append, checked_cons, Config.chestRecords, decide_eq_true_eq,
    Nat.lt_succ_iff]

theorem returnChest_unknown {s : State} {id : Nat} (hid : 2047 < id) : returnChest id s = refuse s .noSuch := by
  unfold returnChest
  dsimp only
  rw [List.append_assoc, checked_isAccepted, if_neg (by omega)]

theorem returnChest_notAccepted {s : State} {id : Nat} (hid : id ≤ 2047)
    (hno : s.chestIs id (fun c => c.place.isAccepted) = false) : returnChest id s = refuse s .badState := by
  unfold returnChest
  dsimp only
  rw [List.append_assoc, checked_isAccepted, if_pos hid, if_neg (by simp [hno])]

theorem voidChest_unknown {s : State} {id : Nat} (hid : 2047 < id) : voidChest id s = refuse s .noSuch := by
  unfold voidChest
  split
  · rw [checked_cons, if_neg (by simp [Config.chestRecords]; omega)]
  · rw [checked_isAccepted, if_neg (by omega)]

/-- A held chest is voided whatever its lot or its mark (R44). -/
theorem voidChest_held {s : State} {id : Nat} (hid : id ≤ 2047) (hheld : s.chestIs id (fun c => c.place.isHeld) = true) :
    voidChest id s = okay (s.freeChest id) [] := by
  unfold voidChest
  rw [if_pos hheld, checked_cons, if_pos (by simp [Config.chestRecords]; omega), checked_nil]

theorem voidChest_notHeld {s : State} {id : Nat} (hno : s.chestIs id (fun c => c.place.isHeld) = false) :
    voidChest id s = checked s (s.isAccepted id ++ s.removable (s.chestD id))
      (okay ((s.removeLast id).freeChest id) []) := by
  unfold voidChest
  rw [if_neg (by simp [hno])]

/-- A chest that is neither held nor accepted is not voided (R42). -/
theorem voidChest_unplaced {s : State} {id : Nat} (hid : id ≤ 2047)
    (hheld : s.chestIs id (fun c => c.place.isHeld) = false)
    (haccepted : s.chestIs id (fun c => c.place.isAccepted) = false) : voidChest id s = refuse s .badState := by
  rw [voidChest_notHeld hheld, checked_isAccepted, if_pos hid, if_neg (by simp [haccepted])]

/-- Settles O39: the checks of R44 by the chest's place; a held chest gives up its place in the pool and its record. -/
theorem heldChestIsVoided : Obligations.HeldChestIsVoided := by
  intro s id hs
  refine ⟨fun h => ⟨fun hid => ?_, fun hid hno => ?_, fun c r o hid hc hp => ?_⟩,
    fun h => ⟨fun hid => ?_, fun hid hno => ?_⟩⟩
  · exact exec_refused hs h rfl (voidChest_unknown hid)
  · have away (p : Chest → Bool) (hp : ∀ c k, c.place = .tentative k → p c = false) : s.chestIs id p = false := by
      refine State.chestIs_false fun c hc => ?_
      rcases hno with hfree | ⟨c', k, hc', hk⟩
      · rw [hfree] at hc; cases hc
      · obtain rfl := Option.some.inj (hc'.symm.trans hc)
        exact hp c' k hk
    have hheld := away (fun c => c.place.isHeld) fun c k hk => by rw [hk]; rfl
    have haccepted := away (fun c => c.place.isAccepted) fun c k hk => by rw [hk]; rfl
    exact exec_refused hs h rfl (voidChest_unplaced hid hheld haccepted)
  · have hheld : s.chestIs id (fun c => c.place.isHeld) = true := by rw [State.chestIs_eq hc, hp]; rfl
    refine ⟨_, exec_okay hs h rfl (voidChest_held hid hheld), rfl, ?_, fun j hj => ?_⟩
    · exact (State.freeChest_chest? s id id).trans (if_pos rfl)
    · exact (State.freeChest_chest? s id j).trans (if_neg hj)
  · exact exec_refused hs h rfl (returnChest_unknown hid)
  · refine exec_refused hs h rfl (returnChest_notAccepted hid (State.chestIs_false fun c hc => ?_))
    refine Bool.eq_false_iff.mpr fun haccepted => ?_
    obtain ⟨k, n, b, hp⟩ := Place.isAccepted_iff.mp haccepted
    exact hno c k n b hc hp

/-! ## Checks 3 to 5 of R42 -/

/-- The lot lets the chest of serial `n` leave: it is OPEN, PACKING or FINISHING by its fill, and `n` is its last serial
(R16, R42). -/
def Lot.releases (l : Lot) (n : Nat) : Prop :=
  (l.state = .opened ∨ l.state = .packing ∨ (l.state = .finishing ∧ l.cause = some .filled)) ∧ n = l.accepted

theorem Lot.releases_iff {l : Lot} {n : Nat} : l.releases n ↔ l.mayRemove = true ∧ (n == l.accepted) = true := by
  simp only [Lot.releases, Lot.mayRemove, Bool.or_eq_true, Bool.and_eq_true, Lot.takesChests_iff, beq_iff_eq, or_assoc]

section Accepted

variable {s : State} {id k n b : Nat} {c : Chest} {l : Lot}

/-- Checks 3 to 5 for an accepted chest of a non-free lot, and the checks after them. -/
theorem checked_removable (hp : c.place = .accepted k n b) (hl : s.lot? k = some l) (checks : List (Bool × Status))
    (effect : State × Reply) :
    (¬ l.releases n → checked s (s.removable c ++ checks) effect = refuse s .badState) ∧
    (l.releases n → c.job ≠ none → checked s (s.removable c ++ checks) effect = refuse s .inFlight) ∧
    (l.releases n → c.job = none → checked s (s.removable c ++ checks) effect = checked s checks effect) := by
  have hchecks : s.removable c ++ checks =
      (l.mayRemove, .badState) :: (n == l.accepted, .badState) :: (c.job.isNone, .inFlight) :: checks := by
    simp only [State.removable, hp, State.lotIs_eq hl, State.lotD_eq hl, Chest.idleMark, List.cons_append,
      List.nil_append]
  rw [hchecks, checked_cons, checked_cons, checked_cons, Lot.releases_iff]
  refine ⟨fun hno => ?_, fun ⟨hmay, hlast⟩ hj => ?_, fun ⟨hmay, hlast⟩ hj => ?_⟩
  · by_cases hmay : l.mayRemove = true
    · rw [if_pos hmay, if_neg fun hlast => hno ⟨hmay, hlast⟩]
    · rw [if_neg hmay]
  · rw [if_pos hmay, if_pos hlast, if_neg fun hnone => hj (Option.isNone_iff_eq_none.mp hnone)]
  · rw [if_pos hmay, if_pos hlast, if_pos (Option.isNone_iff_eq_none.mpr hj)]

variable (hid : id ≤ 2047) (hc : s.chest? id = some c) (hp : c.place = .accepted k n b)
include hid hc hp

/-- RETURN_CHEST of an accepted chest, past its first two checks. -/
theorem returnChest_accepted : returnChest id s = checked s (s.removable c ++ [(s.poolRoom, .noRoom)])
    (okay ((s.removeLast id).holdChest id c .returned (some k)) [byte (s.pool.length + 1)]) := by
  have haccepted : s.chestIs id (fun c => c.place.isAccepted) = true := by rw [State.chestIs_eq hc, hp]; rfl
  unfold returnChest
  dsimp only
  rw [State.chestD_eq hc, List.append_assoc, checked_isAccepted, if_pos hid, if_pos haccepted, hp]
  rfl

/-- VOID_CHEST of an accepted chest, past its first two checks. -/
theorem voidChest_accepted :
    voidChest id s = checked s (s.removable c ++ []) (okay ((s.removeLast id).freeChest id) []) := by
  have haccepted : s.chestIs id (fun c => c.place.isAccepted) = true := by rw [State.chestIs_eq hc, hp]; rfl
  have hheld : s.chestIs id (fun c => c.place.isHeld) = false := by rw [State.chestIs_eq hc, hp]; rfl
  rw [voidChest_notHeld hheld, State.chestD_eq hc, checked_isAccepted, if_pos hid, if_pos haccepted, List.append_nil]

end Accepted

theorem State.poolRoom_iff {s : State} : s.poolRoom = true ↔ s.pool.length < 64 := decide_eq_true_iff

/-- Settles O38: the checks of R42 and R45 in order; the lot's and the bulk's figures are given back, and the chest is
held or freed. -/
theorem acceptedChestIsRemoved : Obligations.AcceptedChestIsRemoved := by
  intro s id c k n b x l hs hid hc hp hl hx
  dsimp only
  change (s.latches 0x52 readChestId id → (¬ l.releases n → _) ∧ (l.releases n → _) ∧ (l.releases n → _) ∧
    (l.releases n → _)) ∧ (s.latches 0x53 readChestId id → (¬ l.releases n → _) ∧ (l.releases n → _) ∧ (l.releases n → _))
  obtain ⟨hframe, hlots, hlot, hbulk⟩ := State.removeLast_spec hc hp hl hx
  refine ⟨fun h => ?_, fun h => ?_⟩
  · have hreturn := returnChest_accepted hid hc hp
    obtain ⟨hbad, hbusy, hfree⟩ := checked_removable hp hl [(s.poolRoom, .noRoom)]
      (okay ((s.removeLast id).holdChest id c .returned (some k)) [byte (s.pool.length + 1)])
    rw [checked_cons, checked_nil] at hfree
    refine ⟨fun hm => ?_, fun hm hj => ?_, fun hm hj hfull => ?_, fun hm hj hroom => ?_⟩
    · exact exec_refused hs h rfl (hreturn.trans (hbad hm))
    · exact exec_refused hs h rfl (hreturn.trans (hbusy hm hj))
    · refine exec_refused hs h rfl (hreturn.trans ((hfree hm hj).trans (if_neg fun hroom => ?_)))
      exact absurd (State.poolRoom_iff.mp hroom) (by omega)
    · have htaken := hreturn.trans ((hfree hm hj).trans (if_pos (State.poolRoom_iff.mpr hroom)))
      generalize s.removeLast id = u at *
      refine ⟨_, exec_okay hs h rfl htaken, ?_, ⟨hlots, hlot, hbulk⟩, fun j hj => ?_, ?_⟩
      · rw [hframe]; rfl
      · refine (State.holdChest_chest? u id j c _ _).trans ((if_neg hj).trans ?_)
        rw [hframe]; rfl
      · exact (State.holdChest_chest? u id id c _ _).trans (if_pos rfl)
  · have hvoid := voidChest_accepted hid hc hp
    obtain ⟨hbad, hbusy, hfree⟩ := checked_removable hp hl [] (okay ((s.removeLast id).freeChest id) [])
    refine ⟨fun hm => ?_, fun hm hj => ?_, fun hm hj => ?_⟩
    · exact exec_refused hs h rfl (hvoid.trans (hbad hm))
    · exact exec_refused hs h rfl (hvoid.trans (hbusy hm hj))
    · have htaken := hvoid.trans (hfree hm hj)
      rw [checked_nil] at htaken
      generalize s.removeLast id = u at *
      refine ⟨_, exec_okay hs h rfl htaken, ?_, ⟨hlots, hlot, hbulk⟩, fun j hj => ?_, ?_⟩
      · rw [hframe]; rfl
      · refine (State.freeChest_chest? u id j).trans ((if_neg hj).trans ?_)
        rw [hframe]; rfl
      · exact (State.freeChest_chest? u id id).trans (if_pos rfl)

end Sys2Proof.Machine
end

section
/-! PROOFS. ASSIGN_HELD (O37): the acceptance test case by case, the command's checks in their order, and the acceptance of
the chest as it leaves the pool. -/

namespace Sys2Proof.Machine

/-! ## The acceptance test (R96, R97) -/

theorem acceptanceTest_of_fails {l : Lot} {net : Int} {d : Nat} {f : FailReason} (h : l.fails net d f) :
    acceptanceTest l net d = .fail f := by
  unfold acceptanceTest
  match f, h with
  | .resolution, hd => exact if_pos hd
  | .short, ⟨hd, hlow⟩ => rw [if_neg (by omega), if_pos hlow]
  | .over, ⟨hd, hlow, hhigh⟩ => rw [if_neg (by omega), if_neg (by omega), if_pos hhigh]

theorem acceptanceTest_of_accepts {l : Lot} {net : Int} {d : Nat} (h : l.accepts net d) :
    acceptanceTest l net d = .pass (l.recorded net) := by
  obtain ⟨hd, hlow, hhigh⟩ := h
  unfold acceptanceTest
  rw [if_neg (by omega), if_neg (by omega), if_neg (by omega)]
  rfl

/-! ## The checks of ASSIGN_HELD (R39) -/

/-- The tests of R40 on a held chest `c` for the lot `l`, and the acceptance of R41. -/
def State.testAssigned (s : State) (p : AssignParams) (c : Chest) (l : Lot) : State × Reply :=
  match acceptanceTest l c.net (s.assignDivision c) with
  | .fail reason => refusedTest s reason.code
  | .pass recNet =>
    if (s.bulkD l.bulk).balances recNet then
      okay (((s.leavePool p.chest).acceptChest p.chest c p.slot p.head recNet false).fillIfFull p.slot)
        [byte (l.accepted + 1)]
    else refusedTest s 3

theorem assignHeld_eq (p : AssignParams) (s : State) :
    assignHeld p s =
      if p.chest ≤ 2047 ∧ p.slot ≤ 47 then
        if s.chestIs p.chest (fun c => c.place.isHeld) = true then
          if s.lotIs p.slot Lot.takesChests = true then
            if s.bulkIs (s.lotD p.slot).bulk (fun b => b.state == .mixed) = true then
              if (s.lotD p.slot).accepted + (s.lotD p.slot).tentative < (s.lotD p.slot).planned then
                if 1 ≤ p.head ∧ p.head ≤ 14 ∧ (s.station p.head).kind = .stencil then
                  if (s.head p.head).queue.length < 16 then s.testAssigned p (s.chestD p.chest) (s.lotD p.slot)
                  else refuse s .noRoom
                else refuse s .badValue
              else refuse s .noRoom
            else refuse s .badState
          else refuse s .badState
        else refuse s .badState
      else refuse s .noSuch := by
  simp only [assignHeld, checked_cons, checked_nil, Config.chestRecords, Config.lotSlots, Config.queueCapacity, Lot.room,
    State.isKind, State.queueRoom, Bool.and_eq_true, decide_eq_true_eq, beq_iff_eq, Nat.lt_succ_iff, and_assoc]
  rfl

/-- ASSIGN_HELD past its checks on the chest, the lot and the bulk. -/
theorem assignHeld_fresh {s : State} {p : AssignParams} {c : Chest} {l : Lot} {b : Bulk} {r : HoldReason} {o : Option Nat}
    (hid : p.chest ≤ 2047) (hk : p.slot ≤ 47) (hc : s.chest? p.chest = some c) (hl : s.lot? p.slot = some l)
    (hb : s.bulk? l.bulk = some b)
    (hf : c.place = .held r o ∧ (l.state = .opened ∨ l.state = .packing) ∧ b.state = .mixed) :
    assignHeld p s =
      if l.accepted + l.tentative < l.planned then
        if 1 ≤ p.head ∧ p.head ≤ 14 ∧ (s.station p.head).kind = .stencil then
          if (s.head p.head).queue.length < 16 then s.testAssigned p c l
          else refuse s .noRoom
        else refuse s .badValue
      else refuse s .noRoom := by
  obtain ⟨hp, hst, hm⟩ := hf
  have hheld : s.chestIs p.chest (fun c => c.place.isHeld) = true := by rw [State.chestIs_eq hc, hp]; rfl
  have htakes : s.lotIs p.slot Lot.takesChests = true := State.lotIs_iff.mpr ⟨l, hl, Lot.takesChests_iff.mpr hst⟩
  have hmixed : s.bulkIs l.bulk (fun b => b.state == .mixed) = true := State.bulkIs_iff.mpr ⟨b, hb, by simp [hm]⟩
  rw [assignHeld_eq, State.chestD_eq hc, State.lotD_eq hl, if_pos ⟨hid, hk⟩, if_pos hheld, if_pos htakes, if_pos hmixed]

/-- ASSIGN_HELD without a held chest, or without a lot that takes chests on a MIXED bulk. -/
theorem assignHeld_badState {s : State} {p : AssignParams} (hid : p.chest ≤ 2047) (hk : p.slot ≤ 47)
    (hno : ¬ (s.chestIs p.chest (fun c => c.place.isHeld) = true ∧ s.lotIs p.slot Lot.takesChests = true ∧
      s.bulkIs (s.lotD p.slot).bulk (fun b => b.state == .mixed) = true)) :
    assignHeld p s = refuse s .badState := by
  rw [assignHeld_eq, if_pos ⟨hid, hk⟩]
  by_cases hheld : s.chestIs p.chest (fun c => c.place.isHeld) = true
  · by_cases htakes : s.lotIs p.slot Lot.takesChests = true
    · rw [if_pos hheld, if_pos htakes, if_neg fun hmixed => hno ⟨hheld, htakes, hmixed⟩]
    · rw [if_pos hheld, if_neg htakes]
  · rw [if_neg hheld]

/-! ## The tests of ASSIGN_HELD (R40, R41) -/

section Tested

variable {s : State} {p : AssignParams} {c : Chest} {l : Lot}

theorem State.testAssigned_fails {f : FailReason} (h : l.fails c.net (s.assignDivision c) f) :
    s.testAssigned p c l = refusedTest s f.code := by
  unfold State.testAssigned; rw [acceptanceTest_of_fails h]

theorem State.testAssigned_passes {b : Bulk} (hb : s.bulk? l.bulk = some b)
    (h : l.accepts c.net (s.assignDivision c)) :
    s.testAssigned p c l =
      if b.drawn + l.recorded c.net ≤ b.limit then
        okay (((s.leavePool p.chest).acceptChest p.chest c p.slot p.head (l.recorded c.net) false).fillIfFull p.slot)
          [byte (l.accepted + 1)]
      else refusedTest s 3 := by
  unfold State.testAssigned
  rw [acceptanceTest_of_accepts h, State.bulkD_eq hb]
  simp only [Bulk.balances, decide_eq_true_eq]

/-- The division of R40, as the statement gives it. -/
theorem State.assignDivision_eq (s : State) (c : Chest) : s.assignDivision c =
    if (s.station c.scale).kind = .scale ∧ (s.station c.scale).join = .active
      then max c.division (s.station c.scale).division else c.division := by
  simp only [State.assignDivision, State.isActive, beq_iff_eq]

/-- A refused test is sent with its reason and changes nothing else. -/
theorem exec_assignHeld_refusedTest {reason : Nat} (hs : s.part = .running) (h : s.latches 0x51 readAssign p)
    (ho : assignHeld p s = refusedTest s reason) :
    exec .assignHeld s = .next { s with buffer := answer 0x51 0x0B [byte reason] } := by
  have hexec : exec .assignHeld s = .next (takeCommand 0x51 readAssign false assignHeld s) := rfl
  rw [hexec, takeCommand_running false assignHeld h hs, ho]
  rfl

end Tested

/-- Settles O37: the checks of R39 in order, the tests of R40, and the acceptance of R41 with the fill it may bring. -/
theorem heldChestIsAssigned : Obligations.HeldChestIsAssigned := by
  intro s p hs h
  refine ⟨fun hno => ?_, fun hid hk hno => ?_, fun c l b r o hid hk hc hl hb => ?_⟩
  · exact exec_refused hs h rfl (by rw [assignHeld_eq, if_neg hno])
  · refine exec_refused hs h rfl (assignHeld_badState hid hk fun ⟨hheld, htakes, hmixed⟩ => ?_)
    obtain ⟨l, hl, htakes⟩ := State.lotIs_iff.mp htakes
    rw [State.lotD_eq hl] at hmixed
    obtain ⟨b, hb, hmixed⟩ := State.bulkIs_iff.mp hmixed
    rcases hno with hplace | hlot
    · obtain ⟨c, hc, hheld⟩ := State.chestIs_iff.mp hheld
      obtain ⟨r, o, hp⟩ := Place.isHeld_iff.mp hheld
      exact hplace c r o hc hp
    · exact hlot l b hl (Lot.takesChests_iff.mp htakes) hb (beq_iff_eq.mp hmixed)
  · dsimp only
    rw [← State.assignDivision_eq]
    have fresh := assignHeld_fresh (r := r) (o := o) hid hk hc hl hb
    refine ⟨fun hf hroom => ?_, fun hf hroom hhead => ?_, fun hf hroom hhead hq => ?_, fun hf hroom hhead hq => ?_⟩
    · exact exec_refused hs h rfl ((fresh hf).trans (if_neg (by omega)))
    · exact exec_refused hs h rfl ((fresh hf).trans (by rw [if_pos hroom, if_neg hhead]))
    · exact exec_refused hs h rfl ((fresh hf).trans (by rw [if_pos hroom, if_pos hhead, if_neg (by omega)]))
    · have htest := (fresh hf).trans (by rw [if_pos hroom, if_pos hhead, if_pos hq])
      have fails (f : FailReason) (hfail : l.fails c.net (s.assignDivision c) f) :=
        exec_assignHeld_refusedTest hs h (htest.trans (State.testAssigned_fails hfail))
      refine ⟨fun hd => fails .resolution hd, fun hd hlow => fails .short ⟨hd, hlow⟩,
        fun hd hlow hhigh => fails .over ⟨hd, hlow, hhigh⟩, fun hd hlow hhigh => ⟨fun hover => ?_, fun hfits => ?_⟩⟩
      · refine exec_assignHeld_refusedTest hs h (htest.trans ((State.testAssigned_passes hb ⟨hd, hlow, hhigh⟩).trans
          (if_neg ?_)))
        exact Nat.not_le.mpr hover
      · have htaken := htest.trans ((State.testAssigned_passes hb ⟨hd, hlow, hhigh⟩).trans (if_pos hfits))
        obtain ⟨hframe, haccepts, hlane, hwait, hfilled⟩ :=
          State.acceptFill_spec (s := s.leavePool p.chest) hl p.chest p.head (l.recorded c.net) c false
        refine ⟨_, exec_okay hs h rfl htaken, ?_, haccepts, hlane, hwait, hfilled⟩
        generalize State.fillIfFull _ p.slot = t at hframe ⊢
        rw [hframe]
        rfl

end Sys2Proof.Machine
end

section
/-! PROOFS. The records of lots, chests and queues need not agree after a step (O59): the law does not ask that an accepted
chest's lot is non-free, as the law of O58 does; REPRINT does not look (R128); and a job for a chest without its lot breaks
the law. -/

namespace Sys2Proof.Machine

/-- No lot at all, an accepted chest 612 that names lot 3, and REPRINT of that chest on head 7, a stencil station, latched
and first in the queue. -/
def State.lotless : State :=
  { (State.reset.setStation 7 { Station.cold with kind := .stencil }).setChest 612
      (some { Chest.blank with place := .accepted 3 1 2, recNet := some 40000, mark := .marked }) with
    buffer := .preparing (commandFrame 0x63 [0x02, 0x64, 7])
    pending := [.reprint] }

/-- With no lot, lane or job there is nothing for the records to disagree about. -/
theorem State.recordsAgree_of_empty {s : State} (hc : s.canonical = true) (hl : s.lots = []) (hn : s.lanes = [])
    (hh : s.heads = []) : s.recordsAgree := by
  have lot (k : Nat) : s.lot? k = none := by simp [State.lot?, hl]
  have lane (n : Nat) : s.lane? n = none := by simp [State.lane?, hn]
  have queue (a : Nat) : (s.head a).queue = [] := by simp [State.head, Table.getD, hh, Head.cold]
  refine ⟨?_, ?_, ?_, ?_⟩
  · simp [State.lanesCounted, hc, lot, lane]
  · simp [State.jobsAgree, State.soleJobs, queue, lot]
  · simp [State.tentativesAgree, lot, lane]
  · simp [State.withinBudget, hl, lot]

theorem State.recordsAgree_lotless : State.lotless.recordsAgree :=
  State.recordsAgree_of_empty (by decide) rfl rfl rfl

/-- The reprint is taken: a job joins head 7, and still there is no lot. -/
theorem step_lotless : ∃ t, step State.lotless = .next t ∧ { chest := 612, kind := .reprint } ∈ (t.head 7).queue ∧
    t.lots = [] := ⟨_, rfl, by decide, rfl⟩

/-- A job stands for a chest of a non-free lot, so with a job there is a lot. -/
theorem State.lots_ne_nil_of_job {s : State} (h : s.jobsAgree) {a : Nat} {j : Job} (hj : j ∈ (s.head a).queue) :
    s.lots ≠ [] := by
  obtain ⟨-, hjobs, -⟩ := h
  obtain ⟨-, -, c, k, n, b, -, -, -, hlot⟩ := hjobs a j hj
  intro hl
  simp [State.lot?, hl] at hlot

/-- Refutes O59, its second law: in a state that meets it, REPRINT of an accepted chest whose lot slot is free appends a job
that stands for no lot's chest. -/
theorem not_stepKeepsCapacities : ¬ Obligations.StepKeepsCapacities := by
  rintro ⟨-, hkeeps⟩
  obtain ⟨t, hstep, hjob, hlots⟩ := step_lotless
  obtain ⟨-, hjobs, -⟩ := hkeeps State.lotless t State.recordsAgree_lotless hstep
  exact State.lots_ne_nil_of_job hjobs hjob hlots

end Sys2Proof.Machine
end

section
/-! PROOFS. The bulk table under the shared updates and those of the link, the heads and the scales: they leave it as it
is. -/

namespace Sys2Proof.Machine

/-! ## Notices, lanes and lots -/

@[simp] theorem State.placeAnswer_bulks (s : State) (a : Nat) (x : Answer) : (s.placeAnswer a x).bulks = s.bulks := rfl

@[simp] theorem State.lastSource_bulks (s : State) (k : NoticeKind) (l : List Nat) :
    (s.lastSource k l).bulks = s.bulks := by
  rw [(s.lastSource_spec k l).1]

@[simp] theorem State.queueNotices_bulks (s : State) (a b c : Nat) : (s.queueNotices a b c).bulks = s.bulks := by
  rw [s.queueNotices_eq a b c]

@[simp] theorem State.holdCause_bulks (s : State) (n : Nat) (r : LaneHold) (auto : Bool) :
    (s.holdCause n r auto).bulks = s.bulks := by
  unfold State.holdCause
  split
  · rfl
  · split_ifs <;> rfl

@[simp] theorem State.settleLane_bulks (s : State) (n : Nat) : (s.settleLane n).bulks = s.bulks := by
  unfold State.settleLane
  split
  · rfl
  · split
    · split_ifs <;> rfl
    · rfl

@[simp] theorem State.fireOneShot_bulks (s : State) (n : Nat) : (s.fireOneShot n).bulks = s.bulks := by
  unfold State.fireOneShot
  split_ifs
  · rw [State.holdCause_bulks, State.modLane_bulks]
  · rfl

@[simp] theorem State.unmapLane_bulks (s : State) (n : Nat) : (s.unmapLane n).bulks = s.bulks := by
  unfold State.unmapLane
  split
  · rfl
  · dsimp only; split <;> rfl

@[simp] theorem State.unmapLanesOf_bulks (s : State) (k : Nat) : (s.unmapLanesOf k).bulks = s.bulks := by
  rw [(s.unmapLanesOf_spec k).1]

@[simp] theorem State.evalComplete_bulks (s : State) (k : Nat) : (s.evalComplete k).bulks = s.bulks := by
  rw [s.evalComplete_eq k]

@[simp] theorem State.fillIfFull_bulks (s : State) (k : Nat) : (s.fillIfFull k).bulks = s.bulks := by
  unfold State.fillIfFull
  split
  · rfl
  · split_ifs
    · rw [State.evalComplete_bulks, State.unmapLanesOf_bulks, State.raise_bulks, State.modLot_bulks]
    · rfl

@[simp] theorem State.endAcceptance_bulks (s : State) (n k : Nat) : (s.endAcceptance n k).bulks = s.bulks := by
  unfold State.endAcceptance
  dsimp only
  split_ifs <;> simp only [State.fillIfFull_bulks, State.settleLane_bulks, State.fireOneShot_bulks, State.raise_bulks]

/-! ## Chests and mark queues -/

@[simp] theorem State.holdChest_bulks (s : State) (id : Nat) (c : Chest) (r : HoldReason) (o : Option Nat) :
    (s.holdChest id c r o).bulks = s.bulks := rfl

@[simp] theorem State.freeChest_bulks (s : State) (id : Nat) : (s.freeChest id).bulks = s.bulks := rfl

@[simp] theorem State.settleTentative_bulks (s : State) (n id : Nat) (r : HoldReason) :
    (s.settleTentative n id r).bulks = s.bulks := by
  rw [s.settleTentative_eq n id r]

@[simp] theorem State.chestFor_bulks (s : State) (w : Weighed) (chest : Option Nat) (fresh : Nat) :
    (s.chestFor w chest fresh).2.2.bulks = s.bulks := by
  cases chest <;> rfl

@[simp] theorem State.appendJob_bulks (s : State) (a id : Nat) (kind : JobKind) :
    (s.appendJob a id kind).bulks = s.bulks := by
  rw [s.appendJob_eq a id kind]

@[simp] theorem State.settleMark_bulks (s : State) (id : Nat) (m : MarkStatus) :
    (s.settleMark id m).bulks = s.bulks := by
  unfold State.settleMark
  dsimp only
  split
  · rw [State.evalComplete_bulks, State.modLot_bulks, State.modChest_bulks]
  · rfl

@[simp] theorem State.cancelJobs_bulks (s : State) (a : Nat) (out : Job → Bool) :
    (s.cancelJobs a out).bulks = s.bulks := by
  unfold State.cancelJobs
  dsimp only
  rw [State.queueNotices_bulks]
  exact foldl_frame State.bulks _ (fun t (j : Job) => t.settleMark_bulks j.chest _) _ _

@[simp] theorem State.frontLeaves_bulks (s : State) (a : Nat) (m : MarkStatus) :
    (s.frontLeaves a m).bulks = s.bulks := by
  unfold State.frontLeaves
  split
  · rfl
  · rw [State.settleMark_bulks, State.modHead_bulks]

@[simp] theorem State.cutMark_bulks (s : State) (a : Nat) (r : PauseReason) : (s.cutMark a r).bulks = s.bulks := by
  unfold State.cutMark
  dsimp only
  split_ifs
  · split <;> rfl
  · rfl

@[simp] theorem State.markDone_bulks (s : State) (a : Nat) : (s.markDone a).bulks = s.bulks := by
  unfold State.markDone
  dsimp only
  rw [State.queueNotices_bulks]
  split_ifs <;> simp only [State.raise_bulks, State.modHead_bulks, State.frontLeaves_bulks]

@[simp] theorem State.markFault_bulks (s : State) (a : Nat) (m : MarkStatus) (code : FaultCode) :
    (s.markFault a m code).bulks = s.bulks := by
  unfold State.markFault
  dsimp only
  rw [State.queueNotices_bulks, State.raise_bulks, State.modHead_bulks, State.frontLeaves_bulks]

/-! ## Force hold -/

@[simp] theorem State.forceSettle_bulks (s : State) (n : Nat) : (s.forceSettle n).bulks = s.bulks := by
  unfold State.forceSettle
  dsimp only
  split <;> split_ifs <;> simp only [State.answerCall_bulks, State.settleTentative_bulks]

@[simp] theorem State.forceHold_bulks (s : State) (n : Nat) : (s.forceHold n).bulks = s.bulks := by
  unfold State.forceHold State.forceCancel
  dsimp only
  rw [State.modLane_bulks, State.lastSource_bulks, State.lastSource_bulks,
    foldl_frame State.bulks _ fun t a => State.cancelJobs_bulks t a _, State.forceSettle_bulks]

/-! ## The link -/

@[simp] theorem State.elapse_bulks (s : State) : s.elapse.bulks = s.bulks := by
  unfold State.elapse
  exact foldl_frame State.bulks _ (fun t a => (State.setVerification_bulks _ a _).trans (t.modHead_bulks a _)) _ _

@[simp] theorem State.turnSlots_bulks (s : State) : s.turnSlots.bulks = s.bulks := by
  unfold State.turnSlots
  exact foldl_frame State.bulks _ (fun t a => t.modStation_bulks a _) _ _

@[simp] theorem State.outbound_bulks (s : State) (a : Nat) : (s.outbound a).1.bulks = s.bulks := by
  unfold State.outbound
  dsimp only
  split
  · rfl
  · split
    · rfl
    · split
      · rfl
      · split <;> rfl

@[simp] theorem State.sendSlots_bulks (s : State) (l : List Nat) : (s.sendSlots l).1.bulks = s.bulks := by
  induction l generalizing s with
  | nil => rfl
  | cons a l ih => exact (ih _).trans (s.outbound_bulks a)

theorem linkCycle_bulks (s : State) : (linkCycle s).bulks = s.bulks := by
  unfold linkCycle
  split_ifs
  · rfl
  · dsimp only; rw [State.sendSlots_bulks, State.turnSlots_bulks, State.elapse_bulks]
  · dsimp only; rw [State.sendSlots_bulks, State.turnSlots_bulks]

@[simp] theorem State.arrive_bulks (s : State) (a : Nat) (c : Call) : (s.arrive a c).bulks = s.bulks := by
  unfold State.arrive
  dsimp only
  split_ifs <;> rfl

@[simp] theorem State.judge_bulks (s : State) (a : Nat) (kind : StationKind) (b c : Nat) :
    (s.judge a kind b c).bulks = s.bulks := by
  unfold State.judge
  dsimp only
  split <;> rfl

@[simp] theorem State.takePage_bulks (s : State) (a : Nat) (page : Page) : (s.takePage a page).bulks = s.bulks := by
  unfold State.takePage
  dsimp only
  split
  · rfl
  · split <;> rfl
  · split
    · rw [State.judge_bulks, State.setStation_bulks]
    · rfl

@[simp] theorem State.admitWord_bulks (s : State) (a : Nat) (i : Inbound) : (s.admitWord a i).bulks = s.bulks := by
  unfold State.admitWord
  dsimp only
  split
  · split <;> rfl
  · split
    · rfl
    · exact s.takePage_bulks a _
    · rfl
  · split
    · rfl
    · rw [State.arrive_bulks, State.setStation_bulks]
    · rfl
  · rfl
  · rfl

@[simp] theorem State.judgeSlot_bulks (s : State) (a : Nat) (w : Option LinkWord) :
    (s.judgeSlot a w).bulks = s.bulks := by
  unfold State.judgeSlot
  dsimp only
  split
  · rfl
  · split_ifs
    · rfl
    · rfl
    · exact s.admitWord_bulks a _

@[simp] theorem State.loseLanes_bulks (s : State) (a : Nat) : (s.loseLanes a).bulks = s.bulks := by
  unfold State.loseLanes State.holdLanesOf
  dsimp only
  rw [State.lastSource_bulks]
  refine foldl_frame State.bulks _ (fun t n => ?_) _ s
  split
  · rfl
  · split_ifs
    · rw [State.settleLane_bulks, State.holdCause_bulks]
    · split
      · split_ifs
        · exact t.holdCause_bulks n _ _
        · rfl
      · rfl

/-! ## Scales -/

@[simp] theorem State.compareTest_bulks (s : State) (a r mass : Nat) : (s.compareTest a r mass).bulks = s.bulks := by
  unfold State.compareTest
  dsimp only
  rw [State.modStation_bulks, State.answerCall_bulks]
  split_ifs <;> rfl

@[simp] theorem State.takeTest_bulks (s : State) (a : Nat) (r : Reading) : (s.takeTest a r).bulks = s.bulks := by
  unfold State.takeTest
  split
  · split
    · exact s.answerCall_bulks a _ _
    · exact s.compareTest_bulks a _ _
  · exact s.answerCall_bulks a _ _

@[simp] theorem State.graceOver_bulks (s : State) (a : Nat) : (s.graceOver a).bulks = s.bulks := by
  unfold State.graceOver
  dsimp only
  split
  · rfl
  · split
    · rw [State.settleLane_bulks, State.holdCause_bulks]; rfl
    · rfl

@[simp] theorem State.takeTare_bulks (s : State) (a : Nat) (r : Reading) : (s.takeTare a r).bulks = s.bulks := by
  unfold State.takeTare
  dsimp only
  split
  · rw [State.modLane_bulks, State.answerCall_bulks]
  · exact s.answerCall_bulks a _ _

@[simp] theorem State.leaveWaiting_bulks (s : State) (a n : Nat) (kind : WaitKind) :
    (s.leaveWaiting a n kind).bulks = s.bulks := by
  unfold State.leaveWaiting
  dsimp only
  split_ifs
  · rw [State.raise_bulks, State.holdCause_bulks, State.setWait_bulks]
  · rfl

end Sys2Proof.Machine
end

section
/-! PROOFS. In every bulk K stays the sum of the charges and W within the balance limit (O57): the law under the writes
of a bulk, and then command by command. -/

namespace Sys2Proof.Machine

/-! ## The law of one bulk, and of all -/

/-- K is the sum of the charged masses, and W lies within the balance limit (R49, R62). -/
def Bulk.balanced (b : Bulk) : Prop := b.charged = (b.components.map Component.charged).sum ∧ b.drawn ≤ b.limit

theorem State.bulksBalance_iff (s : State) :
    s.bulksBalance ↔ s.canonical = true ∧ ∀ k b, s.bulk? k = some b → b.balanced := Iff.rfl

section Writes

variable {s : State} (hs : s.bulksBalance)
include hs

/-- A change that leaves the bulk table as it is. -/
theorem State.bulksBalance_frame {t : State} (hc : s.canonical = true → t.canonical = true) (hb : t.bulks = s.bulks) :
    t.bulksBalance := by
  refine ⟨hc hs.1, fun k b h => hs.2 k b ?_⟩
  rwa [State.bulk?, hb] at h

/-- A change that neither the law of O58 nor the bulk table sees. -/
theorem State.bulksBalance_sameTerms {t : State} (h : s.SameTerms t) (hb : t.bulks = s.bulks) : t.bulksBalance :=
  State.bulksBalance_frame hs h.canonical hb

theorem State.bulksBalance_setBulk {k : Nat} {o : Option Bulk} (ho : ∀ b ∈ o, b.balanced) :
    (s.setBulk k o).bulksBalance := by
  refine ⟨State.canonical_setBulk hs.1 k o, fun j b h => ?_⟩
  rw [State.setBulk_bulk?] at h
  split at h
  · exact ho b h
  · exact hs.2 j b h

theorem State.bulksBalance_modBulk {k : Nat} {f : Bulk → Bulk}
    (hf : ∀ b, s.bulk? k = some b → b.balanced → (f b).balanced) : (s.modBulk k f).bulksBalance := by
  refine ⟨State.canonical_modBulk hs.1 k f, fun j b h => ?_⟩
  rw [State.modBulk_bulk?] at h
  split at h
  · obtain ⟨b', hb', rfl⟩ := Option.map_eq_some_iff.mp h
    exact hf b' hb' (hs.2 k b' hb')
  · exact hs.2 j b h

end Writes

/-! ## What the commands do to one bulk -/

theorem OpenBulkParams.balanced_bulk (p : OpenBulkParams) : p.bulk.balanced :=
  ⟨by simp [OpenBulkParams.bulk, Function.comp_def], Nat.zero_le _⟩

/-- The claims of components are no part of the law. -/
theorem Bulk.balanced_map {b : Bulk} {f : Component → Component} (h : b.balanced)
    (hf : ∀ c, (f c).charged = c.charged) : ({ b with components := b.components.map f } : Bulk).balanced :=
  ⟨by simpa [Function.comp_def, hf] using h.1, h.2⟩

theorem Bulk.balanced_grant {b : Bulk} (h : b.balanced) (i g : Nat) : (b.grant i g).balanced := by
  refine ⟨?_, h.2⟩
  have hsame : (b.grant i g).components.map Component.charged = b.components.map Component.charged := by
    unfold Bulk.grant
    refine List.ext_getElem? fun j => ?_
    rw [List.getElem?_map, List.getElem?_map, List.getElem?_modify]
    cases b.components[j]? with
    | none => rfl
    | some c => by_cases hj : i = j <;> simp [hj]
  rw [hsame]
  exact h.1

/-- A sum in which one entry has grown by `m`. -/
theorem sum_map_charged_modify (l : List Component) {i : Nat} (hi : i < l.length) {m : Nat} {f : Component → Component}
    (hf : ∀ c, (f c).charged = c.charged + m) :
    ((l.modify i f).map Component.charged).sum = (l.map Component.charged).sum + m := by
  induction l generalizing i with
  | nil => simp at hi
  | cons c l ih =>
    cases i with
    | zero => simp [hf]; omega
    | succ i =>
      have := ih (Nat.lt_of_succ_lt_succ hi)
      simp only [List.modify_succ_cons, List.map_cons, List.sum_cons, this]
      omega

/-- The balance limit only rises with K. -/
theorem Bulk.limit_le_count (b : Bulk) (i m g : Nat) : b.limit ≤ (b.count i m g).limit :=
  Nat.add_le_add (Nat.le_add_right _ _)
    (Nat.div_le_div_right (Nat.mul_le_mul_right _ (Nat.le_add_right _ _)))

/-- A charge counted in a component that is there (R55, R59). -/
theorem Bulk.balanced_count {b : Bulk} (h : b.balanced) {i : Nat} (hi : i < b.components.length) (m g : Nat) :
    (b.count i m g).balanced := by
  refine ⟨?_, h.2.trans (b.limit_le_count i m g)⟩
  calc b.charged + m = (b.components.map Component.charged).sum + m := by rw [h.1]
    _ = _ := (sum_map_charged_modify b.components hi fun _ => rfl).symm

theorem Bulk.balanced_draw {b : Bulk} (h : b.balanced) {x : Nat} (hx : b.balances x = true) :
    ({ b with drawn := b.drawn + x } : Bulk).balanced := ⟨h.1, of_decide_eq_true hx⟩

theorem Bulk.balanced_giveBack {b : Bulk} (h : b.balanced) (x : Nat) :
    ({ b with drawn := b.drawn - x } : Bulk).balanced := ⟨h.1, (Nat.sub_le _ _).trans h.2⟩

theorem Component.charged_loseGrant (c : Component) : c.loseGrant.charged = c.charged := rfl

/-! ## Charges (R52, R55, R59) -/

theorem State.bulksBalance_countCharge {s : State} (hs : s.bulksBalance) {k i : Nat}
    (hi : ∀ b, s.bulk? k = some b → i < b.components.length) (m g : Nat) : (s.countCharge k i m g).bulksBalance := by
  have hcounted : (s.modBulk k (·.count i m g)).bulksBalance :=
    State.bulksBalance_modBulk hs fun b hb hbal => Bulk.balanced_count hbal (hi b hb) m g
  unfold State.countCharge
  dsimp only
  split
  · exact State.bulksBalance_sameTerms hcounted ((State.SameTerms.refl _).raise _ _) rfl
  · exact hcounted

/-- The component that a bin's call is matched to is one of the bulk in its slot. -/
theorem State.chargeTarget_mem {s : State} (hc : s.canonical = true) {a k i : Nat} {b : Bulk} {c : Component}
    (h : s.chargeTarget a = some (k, b, i, c)) : s.bulk? k = some b ∧ b.components[i]? = some c := by
  obtain ⟨⟨k', b'⟩, hfound, h⟩ := Option.bind_eq_some_iff.mp h
  obtain ⟨⟨i', c'⟩, hcomponent, h⟩ := Option.map_eq_some_iff.mp h
  obtain ⟨j, -, hj⟩ := Option.bind_eq_some_iff.mp hcomponent
  obtain ⟨d, hd, hj⟩ := Option.map_eq_some_iff.mp hj
  simp only [Prod.mk.injEq] at h hj
  obtain ⟨rfl, rfl, rfl, rfl⟩ := h
  obtain ⟨rfl, rfl⟩ := hj
  obtain ⟨-, -, hbulks, -⟩ := s.canonical_iff.mp hc
  exact ⟨Table.get?_of_mem hbulks (Table.find_some hfound).1, hd⟩

theorem State.bulksBalance_answerCall {s : State} (hs : s.bulksBalance) (a : Nat) (c : AnswerCode) (v : Nat) :
    (s.answerCall a c v).bulksBalance :=
  State.bulksBalance_sameTerms hs ((State.SameTerms.refl s).answerCall a c v) (s.answerCall_bulks a c v)

theorem State.bulksBalance_answerCharge {s : State} (hs : s.bulksBalance) (a q : Nat) :
    (s.answerCharge a q).bulksBalance := by
  unfold State.answerCharge
  split
  · exact State.bulksBalance_answerCall hs a _ _
  · next k b i c _ =>
    split
    · exact State.bulksBalance_answerCall hs a _ _
    · exact State.bulksBalance_answerCall hs a _ _
    · dsimp only
      split
      · exact State.bulksBalance_answerCall hs a _ _
      · exact State.bulksBalance_sameTerms
          (State.bulksBalance_modBulk hs fun _ _ hb => Bulk.balanced_grant hb i _)
          (((State.SameTerms.refl _).clearSlot a).placeResult a _) rfl

theorem State.bulksBalance_answerDone {s : State} (hs : s.bulksBalance) (a m : Nat) :
    (s.answerDone a m).bulksBalance := by
  unfold State.answerDone
  split
  · exact State.bulksBalance_answerCall hs a _ _
  · next k b i c htarget =>
    obtain ⟨hb, hc⟩ := State.chargeTarget_mem hs.1 htarget
    have counted (g : Nat) : (s.countCharge k i m g).bulksBalance := by
      refine State.bulksBalance_countCharge hs (fun b' hb' => ?_) m g
      obtain rfl := Option.some.inj (hb.symm.trans hb')
      exact (List.getElem?_eq_some_iff.mp hc).1
    split
    · exact State.bulksBalance_answerCall hs a _ _
    · exact State.bulksBalance_answerCall (counted _) a _ _
    · exact State.bulksBalance_answerCall (counted _) a _ _

theorem settleCharge_bulksBalance {s : State} (hs : s.bulksBalance) (p : SettleParams) :
    (settleCharge p s).1.bulksBalance := by
  refine checked_keeps hs fun hchecks => State.bulksBalance_countCharge hs (fun b hb => ?_) _ _
  simp only [List.forall_mem_cons, State.bulkD_eq hb, Bool.and_eq_true, decide_eq_true_eq] at hchecks
  obtain ⟨-, -, hin, -⟩ := hchecks
  omega

/-! ## Bulks opened, mixed and lost from -/

theorem openBulk_bulksBalance {s : State} (hs : s.bulksBalance) (p : OpenBulkParams) :
    (openBulk p s).1.bulksBalance :=
  checked_okay_keeps hs (State.bulksBalance_setBulk hs fun _ hb => Option.mem_some.mp hb ▸ p.balanced_bulk)

theorem mixBulk_bulksBalance {s : State} (hs : s.bulksBalance) (p : Nat × Nat) : (mixBulk p s).1.bulksBalance := by
  refine checked_keeps hs fun _ => ?_
  split
  · exact hs
  · exact State.bulksBalance_modBulk hs fun _ _ hb => hb

theorem spendBulk_bulksBalance {s : State} (hs : s.bulksBalance) (k : Nat) : (spendBulk k s).1.bulksBalance :=
  checked_okay_keeps hs (State.bulksBalance_modBulk hs fun _ _ hb => hb)

theorem freeBulk_bulksBalance {s : State} (hs : s.bulksBalance) (k : Nat) : (freeBulk k s).1.bulksBalance :=
  checked_okay_keeps hs (State.bulksBalance_setBulk hs nofun)

theorem State.bulksBalance_loseBin {s : State} (hs : s.bulksBalance) (a : Nat) : (s.loseBin a).bulksBalance := by
  unfold State.loseBin
  split
  · exact hs
  · split
    · refine State.bulksBalance_sameTerms (State.bulksBalance_modBulk hs fun _ _ hb => Bulk.balanced_map hb fun c => ?_)
        ((State.SameTerms.refl _).raise _ _) rfl
      split <;> rfl
    · exact hs

theorem State.bulksBalance_lose {s : State} (hs : s.bulksBalance) (a : Nat) : (s.lose a).bulksBalance := by
  have hrefl := State.SameTerms.refl s
  have hlost := State.bulksBalance_sameTerms hs
    (((hrefl.modStation a Station.lose).raise .stationLost (some a)).setWait a .none) rfl
  have hbin := State.bulksBalance_loseBin hlost a
  refine State.bulksBalance_sameTerms hbin
    ((((State.SameTerms.refl _).cutMark a .lost).setVerification a _).loseLanes a) ?_
  unfold State.lose
  dsimp only
  rw [State.loseLanes_bulks, State.setVerification_bulks, State.cutMark_bulks]

/-! ## Chests accepted and removed (R63) -/

theorem State.canonical_fillIfFull {s : State} (hs : s.canonical = true) (k : Nat) : (s.fillIfFull k).canonical = true := by
  unfold State.fillIfFull
  split
  · exact hs
  · split
    · refine ((State.SameTerms.refl _).evalComplete k).canonical (State.canonical_unmapLanesOf ?_ k)
      exact State.canonical_setNotice (State.canonical_modLot hs k _) _ _
    · exact hs

theorem State.bulksBalance_fillIfFull {s : State} (hs : s.bulksBalance) (k : Nat) : (s.fillIfFull k).bulksBalance :=
  State.bulksBalance_frame hs (State.canonical_fillIfFull · k) (s.fillIfFull_bulks k)

/-- A chest whose recorded net the balance test of its lot's bulk lets through. -/
theorem State.bulksBalance_acceptChest {s : State} (hs : s.bulksBalance) {k x : Nat}
    (hx : (s.bulkD (s.lotD k).bulk).balances x = true) (id head : Nat) (c : Chest) (w : Bool) :
    (s.acceptChest id c k head x w).bulksBalance := by
  unfold State.acceptChest
  dsimp only
  generalize hu : (s.setChest id _).modLot k _ = u
  have hu_balance : u.bulksBalance := by
    rw [← hu]
    exact State.bulksBalance_frame hs (fun hc => State.canonical_modLot (State.canonical_setChest hc id _) k _) rfl
  have hub (j : Nat) : u.bulk? j = s.bulk? j := by rw [← hu]; rfl
  refine State.bulksBalance_sameTerms (State.bulksBalance_modBulk hu_balance fun b hb hbal => ?_)
    ((State.SameTerms.refl _).appendJob head id .first) (State.appendJob_bulks _ _ _ _)
  rw [hub] at hb
  rw [State.bulkD_eq hb] at hx
  exact Bulk.balanced_draw hbal hx

theorem State.bulksBalance_removeLast {s : State} (hs : s.bulksBalance) (id : Nat) : (s.removeLast id).bulksBalance := by
  unfold State.removeLast
  dsimp only
  split
  · exact State.bulksBalance_modBulk (State.bulksBalance_frame hs (State.canonical_modLot · _ _) rfl)
      fun u _ hu => Bulk.balanced_giveBack hu _
  · exact hs

theorem assignHeld_bulksBalance {s : State} (hs : s.bulksBalance) (p : AssignParams) :
    (assignHeld p s).1.bulksBalance := by
  refine checked_keeps hs fun _ => ?_
  split
  · exact hs
  · split
    · next hx =>
      have hleft := State.bulksBalance_sameTerms hs ((State.SameTerms.refl s).leavePool p.chest) rfl
      exact State.bulksBalance_fillIfFull (State.bulksBalance_acceptChest hleft hx _ _ _ _) _
    · exact hs

theorem returnChest_bulksBalance {s : State} (hs : s.bulksBalance) (id : Nat) : (returnChest id s).1.bulksBalance :=
  checked_okay_keeps hs (State.bulksBalance_sameTerms (State.bulksBalance_removeLast hs id)
    ((State.SameTerms.refl _).holdChest id _ _ _) rfl)

theorem voidChest_bulksBalance {s : State} (hs : s.bulksBalance) (id : Nat) : (voidChest id s).1.bulksBalance := by
  have freed {u : State} (hu : u.bulksBalance) : (u.freeChest id).bulksBalance :=
    State.bulksBalance_sameTerms hu ((State.SameTerms.refl u).freeChest id) rfl
  unfold voidChest
  split
  · exact checked_okay_keeps hs (freed hs)
  · exact checked_okay_keeps hs (freed (State.bulksBalance_removeLast hs id))

/-! ## Lots and lanes -/

theorem openLot_bulksBalance {s : State} (hs : s.bulksBalance) (p : OpenLotParams) : (openLot p s).1.bulksBalance :=
  checked_okay_keeps hs (State.bulksBalance_modBulk
    (State.bulksBalance_frame hs (State.canonical_setLot · p.slot _) rfl) fun _ _ hb => hb)

theorem closeLot_bulksBalance {s : State} (hs : s.bulksBalance) (k : Nat) : (closeLot k s).1.bulksBalance := by
  refine checked_okay_keeps hs (State.bulksBalance_frame hs (fun hc => ?_) ?_)
  · exact ((State.SameTerms.refl _).evalComplete k).canonical
      (State.canonical_unmapLanesOf (State.canonical_modLot hc k _) k)
  · rw [State.evalComplete_bulks, State.unmapLanesOf_bulks, State.modLot_bulks]

theorem retireLot_bulksBalance {s : State} (hs : s.bulksBalance) (k : Nat) : (retireLot k s).1.bulksBalance := by
  have hfewer : (s.modBulk (s.lotD k).bulk fun b => { b with lotRefs := b.lotRefs - 1 }).bulksBalance :=
    State.bulksBalance_modBulk hs fun _ _ hb => hb
  have hgone := State.bulksBalance_frame hfewer (State.canonical_withoutLot · k) rfl
  exact checked_okay_keeps hs hgone

theorem mapLane_bulksBalance {s : State} (hs : s.bulksBalance) (p : MapLaneParams) : (mapLane p s).1.bulksBalance := by
  refine checked_keeps hs fun _ => ?_
  dsimp only [okay]
  split
  · next k _ _ =>
    exact State.bulksBalance_frame hs (fun hc => State.canonical_modLot (State.canonical_setLane hc _ _) k _) rfl
  · exact State.bulksBalance_frame hs (State.canonical_setLane · _ _) rfl

theorem State.canonical_unmapLane {s : State} (hs : s.canonical = true) (n : Nat) : (s.unmapLane n).canonical = true := by
  unfold State.unmapLane
  split
  · exact hs
  · next l _ =>
    have hgone := State.canonical_setWait (State.canonical_setLane hs n none) l.scale .none
    dsimp only
    split
    · exact hgone
    · exact State.canonical_modLot hgone _ _

theorem unmapLaneCommand_bulksBalance {s : State} (hs : s.bulksBalance) (n : Nat) :
    (unmapLaneCommand n s).1.bulksBalance :=
  checked_okay_keeps hs (State.bulksBalance_frame hs (State.canonical_unmapLane · n) (s.unmapLane_bulks n))

/-! ## Gross calls (chapter 5) -/

/-- An outcome that accepts a chest has passed the balance test of its lot's bulk (R62, R98). -/
theorem State.lotOutcome_balances {s : State} {k h d : Nat} {o chest : Option Nat} {net : Int} {j g x : Nat}
    (ho : s.lotOutcome k h o net d = .accept chest j g x) : (s.bulkD (s.lotD j).bulk).balances x = true := by
  unfold State.lotOutcome at ho
  dsimp only at ho
  split at ho
  · split at ho <;> cases ho
  · split at ho
    · next hx => cases ho; exact hx
    · cases ho

/-- An outcome that is decided is that of a lot lane's tests, or UNASSIGNED. -/
theorem State.decideGross_outcome {s : State} {a : Nat} {r : Reading} {w : Weighed} {o : GrossOutcome}
    (hd : s.decideGross a r = .outcome w o) :
    o = .unassigned ∨ ∃ k h chest net d, s.lotOutcome k h chest net d = o := by
  unfold State.decideGross at hd
  split at hd
  · cases hd
  · split at hd
    · cases hd
    · split at hd
      · cases hd
      · split at hd
        · cases hd
        · unfold State.netAndTest at hd
          dsimp only at hd
          split at hd
          · exact .inr ⟨_, _, _, _, _, (GrossDecision.outcome.inj hd).2⟩
          · split at hd
            · cases hd
            · exact .inr ⟨_, _, _, _, _, (GrossDecision.outcome.inj hd).2⟩
          · split at hd
            · cases hd
            · exact .inl (GrossDecision.outcome.inj hd).2.symm

theorem State.canonical_endAcceptance {s : State} (hs : s.canonical = true) (n k : Nat) :
    (s.endAcceptance n k).canonical = true := by
  have ended {u : State} (hu : u.canonical = true) : (if u.lotIs k (fun l => l.accepted == l.planned)
      then u.fillIfFull k else (u.fireOneShot n).settleLane n).canonical = true := by
    split
    · exact State.canonical_fillIfFull hu k
    · exact (((State.SameTerms.refl u).fireOneShot n).settleLane n).canonical hu
  unfold State.endAcceptance
  dsimp only
  split
  · exact ended (State.canonical_setNotice hs _ _)
  · exact ended hs

theorem State.bulksBalance_takeOutcome {s : State} (hs : s.bulksBalance) {w : Weighed} {o : GrossOutcome} (fresh : Nat)
    (ho : ∀ chest k h x, o = .accept chest k h x → (s.bulkD (s.lotD k).bulk).balances x = true) :
    (s.takeOutcome w o fresh).bulksBalance := by
  have hrefl := State.SameTerms.refl s
  cases o with
  | accept chest k h x =>
    have hfor := State.bulksBalance_sameTerms hs (hrefl.chestFor w chest fresh) (s.chestFor_bulks w chest fresh)
    have hx : ((s.chestFor w chest fresh).2.2.bulkD ((s.chestFor w chest fresh).2.2.lotD k).bulk).balances x = true := by
      cases chest <;> exact ho _ k h x rfl
    have haccepted := State.bulksBalance_acceptChest hfor hx (s.chestFor w chest fresh).1 h (s.chestFor w chest fresh).2.1
      chest.isSome
    exact State.bulksBalance_frame haccepted (State.canonical_endAcceptance · _ k) (State.endAcceptance_bulks _ _ k)
  | firstFail k reason =>
    exact State.bulksBalance_sameTerms hs ((hrefl.modLane.setChest).modLot.modLane) rfl
  | secondFail id k =>
    refine State.bulksBalance_sameTerms hs ((((hrefl.modLane).holdChest _ _ _ _).modLot.raise _ _).settleLane _) ?_
    simp [State.takeOutcome, State.clearTentative]
  | balance chest k x =>
    have held := (hrefl.chestFor w chest fresh).holdChest (s.chestFor w chest fresh).1
      { (s.chestFor w chest fresh).2.1 with recNet := some x } .balance (some k)
    unfold State.takeOutcome
    dsimp only
    split
    · refine State.bulksBalance_sameTerms hs ((((held.modLot).raise _ _).holdCause _ _ _).settleLane _) ?_
      simp
    · refine State.bulksBalance_sameTerms hs (((held.raise _ _).holdCause _ _ _).settleLane _) ?_
      simp
  | unassigned =>
    refine State.bulksBalance_sameTerms hs
      (((((hrefl.modLane).holdChest _ _ _ _).raise _ _).fireOneShot _).settleLane _) ?_
    simp [State.takeOutcome, State.consumeTare]

theorem callGross_bulksBalance {s t : State} (hs : s.bulksBalance) {a : Nat} (h : callGross a s = .next t) :
    t.bulksBalance := by
  have hrefl := State.SameTerms.refl s
  unfold callGross at h
  split at h
  · next r _ =>
    unfold State.evaluateGross at h
    split at h
    · next code _ =>
      refine keeps_of_next ?_ h
      have answered := hrefl.answerCall a code 0
      split
      · exact State.bulksBalance_sameTerms hs (answered.settleLane _) (by simp)
      · exact State.bulksBalance_sameTerms hs answered (s.answerCall_bulks _ _ _)
    · next w o hd =>
      split at h
      · split at h
        · cases h
        · refine keeps_of_next (State.bulksBalance_takeOutcome (State.bulksBalance_sameTerms hs
            (hrefl.answerCall a _ _) (s.answerCall_bulks _ _ _)) _ ?_) h
          rintro chest k x y rfl
          rw [State.answerCall_bulkD, State.answerCall_lotD]
          obtain hu | ⟨_, _, _, _, _, ho⟩ := State.decideGross_outcome hd
          · cases hu
          · exact State.lotOutcome_balances ho
      · exact keeps_of_next (State.bulksBalance_sameTerms hs (hrefl.leaveWaiting a _ _) (s.leaveWaiting_bulks _ _ _)) h
  · exact keeps_of_next hs h

/-! ## Starts and purges (chapter 10) -/

/-- With no bulk left, canonical tables are all that the law asks for. -/
theorem State.bulksBalance_empty {s : State} (hc : s.canonical = true) (hb : s.bulks = []) : s.bulksBalance :=
  ⟨hc, fun k b h => by simp [State.bulk?, hb] at h⟩

theorem State.bulksBalance_purged {s : State} (hs : s.canonical = true) : s.purged.bulksBalance := by
  obtain ⟨hcanonical, -⟩ := State.netsInBand_iff _ |>.mp (State.netsInBand_purged hs)
  exact State.bulksBalance_empty hcanonical (by rw [s.purged_spec.1])

theorem State.bulksBalance_resolved {s : State} (hs : s.bulksBalance) : s.resolved.bulksBalance := by
  obtain ⟨-, -, -, -, -, hbulk, -⟩ := s.resolved_spec
  refine ⟨(State.SameTerms.refl s).resolved.canonical hs.1, fun k b h => ?_⟩
  rw [hbulk] at h
  obtain ⟨b', hb', rfl⟩ := Option.map_eq_some_iff.mp h
  exact Bulk.balanced_map (hs.2 k b' hb') Component.charged_loseGrant

theorem State.bulksBalance_start {s : State} (hs : s.bulksBalance) (cause : RestartCause) :
    (s.start cause).bulksBalance := by
  unfold State.start
  split
  · exact State.bulksBalance_empty (by decide : State.reset.canonical = true) rfl
  · next entered _ =>
    have hpurged : (if entered = .purging then s.purged else s).bulksBalance := by
      split
      · exact State.bulksBalance_purged hs.1
      · exact hs
    unfold State.warmStart
    dsimp only
    generalize (if entered = .purging then s.purged else s) = u at hpurged ⊢
    have hraised := State.bulksBalance_sameTerms (State.bulksBalance_resolved hpurged)
      ((State.SameTerms.refl _).raise .restarted (some RestartKind.warm.code)) (State.raise_bulks _ _ _)
    generalize u.resolved.raise .restarted (some RestartKind.warm.code) = v at hraised ⊢
    exact State.bulksBalance_frame hraised id rfl

theorem pwrgoodRise_bulksBalance {s : State} (hs : s.bulksBalance) : (pwrgoodRise s).bulksBalance := by
  have hraised : ({ s with pwrgood := true } : State).bulksBalance := State.bulksBalance_frame hs id rfl
  unfold pwrgoodRise
  split
  · exact hs
  · dsimp only
    split
    · exact State.bulksBalance_start hraised _
    · exact hraised

theorem resetRelease_bulksBalance {s : State} (hs : s.bulksBalance) : (resetRelease s).bulksBalance := by
  have hreleased : ({ s with resetAsserted := false } : State).bulksBalance := State.bulksBalance_frame hs id rfl
  unfold resetRelease
  split
  · exact hs
  · dsimp only
    split
    · exact State.bulksBalance_start hreleased _
    · exact hreleased

theorem purgeComplete_bulksBalance {s : State} (hs : s.bulksBalance) : (purgeComplete s).bulksBalance := by
  unfold purgeComplete
  split
  · exact State.bulksBalance_purged hs.1
  · exact hs

/-! ## Commands that leave the bulks alone -/

/-- A refused command, and one whose effect leaves the bulks alone. -/
theorem checked_bulks {s : State} {checks : List (Bool × Status)} {effect : State × Reply}
    (h : effect.1.bulks = s.bulks) : (checked s checks effect).1.bulks = s.bulks :=
  checked_keeps (P := fun t => t.bulks = s.bulks) rfl fun _ => h

theorem readStation_bulks (a : Nat) (s : State) : (readStation a s).1.bulks = s.bulks := checked_bulks rfl

theorem setTareClass_bulks (p : TareClassParams) (s : State) : (setTareClass p s).1.bulks = s.bulks := checked_bulks rfl

theorem declareLot_bulks (k : Nat) (s : State) : (declareLot k s).1.bulks = s.bulks := checked_bulks rfl

theorem releaseLane_bulks (p : ReleaseParams) (s : State) : (releaseLane p s).1.bulks = s.bulks := checked_bulks rfl

theorem pauseHead_bulks (a : Nat) (s : State) : (pauseHead a s).1.bulks = s.bulks := checked_bulks rfl

theorem resumeHead_bulks (p : Nat × Nat) (s : State) : (resumeHead p s).1.bulks = s.bulks := checked_bulks rfl

theorem setVerify_bulks (p : SetVerifyParams) (s : State) : (setVerify p s).1.bulks = s.bulks := checked_bulks rfl

theorem verifyScale_bulks (p : VerifyParams) (s : State) : (verifyScale p s).1.bulks = s.bulks := checked_bulks rfl

theorem holdLane_bulks (p : Nat × Nat) (s : State) : (holdLane p s).1.bulks = s.bulks :=
  checked_bulks (s.holdCause_bulks _ _ _)

theorem holdLaneForce_bulks (p : Nat × Nat) (s : State) : (holdLaneForce p s).1.bulks = s.bulks :=
  checked_bulks (s.forceHold_bulks _)

theorem flushHead_bulks (a : Nat) (s : State) : (flushHead a s).1.bulks = s.bulks :=
  checked_bulks (s.cancelJobs_bulks _ _)

theorem reprintChest_bulks (p : ReprintParams) (s : State) : (reprintChest p s).1.bulks = s.bulks :=
  checked_bulks (State.appendJob_bulks _ _ _ _)

/-- A read command changes no state. -/
theorem checked_reads {s : State} {checks : List (Bool × Status)} {data : List Byte} :
    (checked s checks (okay s data)).1 = s := checked_keeps (P := fun t => t = s) rfl fun _ => rfl

theorem readTareClass_reads (k : Nat) (s : State) : (readTareClass k s).1 = s := checked_reads

theorem readDeclaration_reads (k : Nat) (s : State) : (readDeclaration k s).1 = s := checked_reads

theorem readLane_reads (n : Nat) (s : State) : (readLane n s).1 = s := checked_reads

theorem readHead_reads (a : Nat) (s : State) : (readHead a s).1 = s := checked_reads

theorem setStation_bulks (p : SetStationParams) (s : State) : (setStation p s).1.bulks = s.bulks := by
  refine checked_bulks ?_
  dsimp only [okay]
  split <;> rfl

theorem readBulk_bulks (p : Named) (s : State) : (readBulk p s).1.bulks = s.bulks := by
  cases p with
  | slot k => exact checked_bulks rfl
  | number n => exact checked_bulks rfl
  | bad => rfl

theorem readLot_bulks (p : Named) (s : State) : (readLot p s).1.bulks = s.bulks := by
  cases p with
  | slot k => exact checked_bulks rfl
  | number n => exact checked_bulks rfl
  | bad => rfl

theorem readChest_bulks (p : ChestName) (s : State) : (readChest p s).1.bulks = s.bulks := by
  cases p with
  | id n => exact checked_bulks rfl
  | serial k n => exact checked_bulks rfl
  | position n => exact checked_bulks rfl
  | bad => rfl

theorem drawSample_bulks (p : SampleParams) (s : State) : (drawSample p s).1.bulks = s.bulks := by
  refine checked_bulks ?_
  dsimp only [okay]
  split
  · exact State.appendJob_bulks _ _ _ _
  · rfl

theorem cancelVerify_bulks (a : Nat) (s : State) : (cancelVerify a s).1.bulks = s.bulks := by
  refine checked_bulks ?_
  split <;> rfl

theorem clearNotices_bulks (set : Nat) (s : State) : (clearNotices set s).1.bulks = s.bulks := by
  refine checked_bulks (foldl_frame State.bulks _ (fun t k => ?_) noticeKinds s)
  split <;> rfl

theorem setNoticeEnables_bulks (set : Nat) (s : State) : (setNoticeEnables set s).1.bulks = s.bulks :=
  checked_bulks (foldl_frame State.bulks (fun t k => t.setNotice k { t.notice k with enable := names set k })
    (fun t k => t.setNotice_bulks k _) noticeKinds s)

theorem startPurge_bulks (p : Unit) (s : State) : (startPurge p s).1.bulks = s.bulks := by
  refine checked_bulks ?_
  exact (foldl_frame State.bulks (fun t a => t.modHead a Head.messageEnds) (fun t a => t.modHead_bulks a _) addresses
    { s with part := .purging, purgeTimer := some Config.purgeMs, noticesAtPurge := s.pendingKinds }).trans rfl

theorem takeUnknown_bulks (s : State) : (takeUnknown s).bulks = s.bulks := by
  unfold takeUnknown
  split
  · rfl
  · split_ifs <;> rfl

theorem windowEnd_bulks (bytes : List Byte) (s : State) : (windowEnd bytes s).bulks = s.bulks := by
  unfold windowEnd
  split_ifs
  · rfl
  · split <;> rfl

theorem readWindow_bulks (n : Nat) (s : State) : (readWindow n s).bulks = s.bulks := by
  unfold readWindow
  split_ifs
  · rfl
  · split <;> rfl

theorem State.enterRetain_bulks (s : State) : s.enterRetain.bulks = s.bulks := by
  unfold State.enterRetain
  split_ifs <;> rfl

theorem pwrgoodFall_bulks (s : State) : (pwrgoodFall s).bulks = s.bulks := by
  unfold pwrgoodFall
  split_ifs
  · exact s.enterRetain_bulks
  · rfl

theorem resetAssert_bulks (s : State) : (resetAssert s).bulks = s.bulks := by
  unfold resetAssert
  split_ifs
  · rfl
  · exact s.enterRetain_bulks
  · rfl

theorem vbakBelow_bulks (s : State) : (vbakBelow s).bulks = s.bulks := by
  unfold vbakBelow
  split_ifs <;> rfl

theorem supplyFails_bulks (s : State) : (supplyFails s).bulks = s.bulks := by
  unfold supplyFails
  split_ifs <;> rfl

/-- A call taken by an owner that leaves the bulks alone. -/
theorem takeFrom_bulks {a : Nat} {f : Call → Option State} {s : State} (hf : ∀ c t, f c = some t → t.bulks = s.bulks) :
    (takeFrom a f s).bulks = s.bulks := takeFrom_keeps (P := fun t => t.bulks = s.bulks) hf rfl

theorem callTare_bulks (a : Nat) (s : State) : (callTare a s).bulks = s.bulks :=
  takeFrom_bulks fun c t hf => by
    split at hf
    · cases hf; exact s.takeTare_bulks a _
    · cases hf

theorem callTest_bulks (a : Nat) (s : State) : (callTest a s).bulks = s.bulks :=
  takeFrom_bulks fun c t hf => by
    split at hf
    · cases hf; exact s.takeTest_bulks a _
    · cases hf

theorem takeReply_bulks {s u : State} (hu : u.bulks = s.bulks) (a : Nat) : (s.takeReply a u).bulks = s.bulks := by
  unfold State.takeReply
  split
  · exact (u.answerCall_bulks a _ _).trans hu
  · exact s.answerCall_bulks a _ _

theorem replyDone_bulks (a : Nat) (s : State) : (replyDone a s).bulks = s.bulks :=
  takeFrom_bulks fun c t hf => by
    split at hf
    · cases hf; exact takeReply_bulks (s.markDone_bulks a) a
    · cases hf

theorem replyFault_bulks (a : Nat) (s : State) : (replyFault a s).bulks = s.bulks :=
  takeFrom_bulks fun c t hf => by
    split at hf
    · cases hf; exact takeReply_bulks (s.markFault_bulks a _ _) a
    · cases hf

theorem callCharge_bulksBalance {s : State} (hs : s.bulksBalance) (a : Nat) : (callCharge a s).bulksBalance :=
  takeFrom_keeps (fun c t hf => by
    split at hf
    · cases hf; exact State.bulksBalance_answerCharge hs a _
    · cases hf) hs

theorem callDone_bulksBalance {s : State} (hs : s.bulksBalance) (a : Nat) : (callDone a s).bulksBalance :=
  takeFrom_keeps (fun c t hf => by
    split at hf
    · cases hf; exact State.bulksBalance_answerDone hs a _
    · cases hf) hs

/-! ## Every command -/

theorem exec_bulksBalance {i : Instr} {s t : State} (hs : s.bulksBalance) (h : exec i s = .next t) : t.bulksBalance := by
  have hrefl := State.SameTerms.refl s
  have same {u : State} (hu : s.SameTerms u) (hb : u.bulks = s.bulks := by rfl) : u.bulksBalance :=
    State.bulksBalance_sameTerms hs hu hb
  have owned {α : Type} {code : Byte} {read : List Byte → Option α} {w : Bool} {own : α → State → State × Reply}
      (ho : ∀ p, (own p s).1.bulksBalance) : (takeCommand code read w own s).bulksBalance :=
    takeCommand_keeps (fun t b ht => State.bulksBalance_frame (t := t.setBuffer b) ht id rfl) ho hs
  have host {α : Type} {code : Byte} {read : List Byte → Option α} {w : Bool} {own : α → State → State × Reply}
      (hb : ∀ p, (own p s).1.bulks = s.bulks) (ho : ∀ p, s.SameTerms (own p s).1) :
      (takeCommand code read w own s).bulksBalance := owned fun p => same (ho p) (hb p)
  have reads {α : Type} {code : Byte} {read : List Byte → Option α} {w : Bool} {own : α → State → State × Reply}
      (hr : ∀ p, (own p s).1 = s) : (takeCommand code read w own s).bulksBalance := owned fun p => (hr p).symm ▸ hs
  cases i with
  | setStation => exact keeps_of_next (host (setStation_bulks · s) (setStation_sameTerms · s)) h
  | readStation =>
    exact keeps_of_next (host (readStation_bulks · s) (fun _ => checked_okay_keeps hrefl (hrefl.modStation _ _))) h
  | setTareClass =>
    exact keeps_of_next (host (setTareClass_bulks · s) (fun _ => checked_okay_keeps hrefl (hrefl.setClass _ _))) h
  | readTareClass => exact keeps_of_next (reads (readTareClass_reads · s)) h
  | openBulk => exact keeps_of_next (owned (openBulk_bulksBalance hs)) h
  | mixBulk => exact keeps_of_next (owned (mixBulk_bulksBalance hs)) h
  | settleCharge => exact keeps_of_next (owned (settleCharge_bulksBalance hs)) h
  | spendBulk => exact keeps_of_next (owned (spendBulk_bulksBalance hs)) h
  | freeBulk => exact keeps_of_next (owned (freeBulk_bulksBalance hs)) h
  | readBulk => exact keeps_of_next (host (readBulk_bulks · s) (readBulk_sameTerms · s)) h
  | openLot => exact keeps_of_next (owned (openLot_bulksBalance hs)) h
  | closeLot => exact keeps_of_next (owned (closeLot_bulksBalance hs)) h
  | declareLot => exact keeps_of_next (host (declareLot_bulks · s) (declareLot_sameTerms · s)) h
  | retireLot => exact keeps_of_next (owned (retireLot_bulksBalance hs)) h
  | drawSample => exact keeps_of_next (host (drawSample_bulks · s) (drawSample_sameTerms · s)) h
  | readLot => exact keeps_of_next (host (readLot_bulks · s) (readLot_sameTerms · s)) h
  | readDeclaration => exact keeps_of_next (reads (readDeclaration_reads · s)) h
  | mapLane => exact keeps_of_next (owned (mapLane_bulksBalance hs)) h
  | unmapLane => exact keeps_of_next (owned (unmapLaneCommand_bulksBalance hs)) h
  | holdLane =>
    refine keeps_of_next ?_ h
    split
    · exact hs
    · exact host (holdLane_bulks · s) (fun _ => checked_okay_keeps hrefl (hrefl.holdCause _ _ _))
  | holdLaneForce =>
    refine keeps_of_next ?_ h
    split
    · exact host (holdLaneForce_bulks · s) (fun _ => checked_okay_keeps hrefl (hrefl.forceHold _))
    · exact hs
  | releaseLane => exact keeps_of_next (host (releaseLane_bulks · s) (releaseLane_sameTerms · s)) h
  | readLane => exact keeps_of_next (reads (readLane_reads · s)) h
  | readChest => exact keeps_of_next (host (readChest_bulks · s) (readChest_sameTerms · s)) h
  | assignHeld => exact keeps_of_next (owned (assignHeld_bulksBalance hs)) h
  | returnChest => exact keeps_of_next (owned (returnChest_bulksBalance hs)) h
  | voidChest => exact keeps_of_next (owned (voidChest_bulksBalance hs)) h
  | pauseHead =>
    exact keeps_of_next (host (pauseHead_bulks · s) (fun _ => checked_okay_keeps hrefl (hrefl.modHead _ _))) h
  | resumeHead =>
    exact keeps_of_next (host (resumeHead_bulks · s) (fun _ => checked_okay_keeps hrefl (hrefl.modHead _ _))) h
  | flushHead =>
    exact keeps_of_next (host (flushHead_bulks · s) (fun _ => checked_okay_keeps hrefl (hrefl.cancelJobs _ _))) h
  | reprint =>
    exact keeps_of_next (host (reprintChest_bulks · s) (fun _ => checked_okay_keeps hrefl
      (hrefl.modChest.appendJob _ _ _))) h
  | readHead => exact keeps_of_next (reads (readHead_reads · s)) h
  | setVerify =>
    exact keeps_of_next (host (setVerify_bulks · s) (fun _ =>
      checked_okay_keeps hrefl (hrefl.setVerification _ _))) h
  | verifyScale =>
    exact keeps_of_next (host (verifyScale_bulks · s) (fun _ =>
      checked_okay_keeps hrefl ((hrefl.setVerification _ _).modStation _ _))) h
  | cancelVerify => exact keeps_of_next (host (cancelVerify_bulks · s) (cancelVerify_sameTerms · s)) h
  | readNotices => exact keeps_of_next (reads (own := readNotices) fun _ => rfl) h
  | clearNotices => exact keeps_of_next (host (clearNotices_bulks · s) (clearNotices_sameTerms · s)) h
  | setNoticeEnables =>
    exact keeps_of_next (host (setNoticeEnables_bulks · s) (fun _ => checked_okay_keeps hrefl
      (hrefl.foldl (fun t k => (State.SameTerms.refl t).setNotice k _) _))) h
  | readPart => exact keeps_of_next (reads (own := readPart) fun _ => rfl) h
  | purge => exact keeps_of_next (host (startPurge_bulks · s) (startPurge_sameTerms · s)) h
  | unknownCommand => exact keeps_of_next (same (takeUnknown_sameTerms s) (takeUnknown_bulks s)) h
  | commandWindowEnd bytes => exact keeps_of_next (same (windowEnd_sameTerms bytes s) (windowEnd_bulks bytes s)) h
  | readWindow n => exact keeps_of_next (same (readWindow_sameTerms n s) (readWindow_bulks n s)) h
  | linkCycle => exact keeps_of_next (same hrefl.linkCycle (linkCycle_bulks s)) h
  | inboundWord a w =>
    exact keeps_of_next (atStation_keeps (same (hrefl.judgeSlot a w) (s.judgeSlot_bulks a w)) hs) h
  | announceWindowExpiry a => exact keeps_of_next (atStation_keeps (same (hrefl.modStation a _)) hs) h
  | stationLost a => exact keeps_of_next (atStation_keeps (State.bulksBalance_lose hs a) hs) h
  | rejoinInhibitExpiry a => exact keeps_of_next (atStation_keeps (same (hrefl.modStation a _)) hs) h
  | refusalExpiry a => exact keeps_of_next (atStation_keeps (same (hrefl.modStation a _)) hs) h
  | callGross a => exact callGross_bulksBalance hs h
  | callTare a => exact keeps_of_next (same (callTare_sameTerms a s) (callTare_bulks a s)) h
  | callTest a => exact keeps_of_next (same (callTest_sameTerms a s) (callTest_bulks a s)) h
  | callCharge a => exact keeps_of_next (callCharge_bulksBalance hs a) h
  | callDone a => exact keeps_of_next (callDone_bulksBalance hs a) h
  | replyDone a => exact keeps_of_next (same (replyDone_sameTerms a s) (replyDone_bulks a s)) h
  | replyFault a => exact keeps_of_next (same (replyFault_sameTerms a s) (replyFault_bulks a s)) h
  | markTimeout a =>
    exact keeps_of_next (atStation_keeps (same ((hrefl.markFault a _ _).raise _ _)
      ((State.raise_bulks _ _ _).trans (s.markFault_bulks a _ _))) hs) h
  | intervalExpiry a => exact keeps_of_next (atStation_keeps (same (hrefl.modHead a _)) hs) h
  | periodExpiry a => exact keeps_of_next (atStation_keeps (same ((hrefl.setVerification a _).raise _ _)) hs) h
  | graceExpiry a => exact keeps_of_next (atStation_keeps (same (hrefl.graceOver a) (s.graceOver_bulks a)) hs) h
  | purgeComplete => exact keeps_of_next (purgeComplete_bulksBalance hs) h
  | pwrgoodFall => exact keeps_of_next (same (pwrgoodFall_sameTerms s) (pwrgoodFall_bulks s)) h
  | resetAssert => exact keeps_of_next (same (resetAssert_sameTerms s) (resetAssert_bulks s)) h
  | pwrgoodRise => exact keeps_of_next (pwrgoodRise_bulksBalance hs) h
  | resetRelease => exact keeps_of_next (resetRelease_bulksBalance hs) h
  | vbakBelowHoldingLevel => exact keeps_of_next (same (vbakBelow_sameTerms s) (vbakBelow_bulks s)) h
  | supplyFailsWithoutPwrgoodFall => exact keeps_of_next (same (supplyFails_sameTerms s) (supplyFails_bulks s)) h

theorem step_bulksBalance {s t : State} (hs : s.bulksBalance) (h : step s = .next t) : t.bulksBalance := by
  unfold step at h
  split at h
  · exact keeps_of_next hs h
  · next c rest _ =>
    have hrest : ({ s with pending := rest } : State).bulksBalance := State.bulksBalance_frame hs id rfl
    exact exec_bulksBalance hrest h

/-- Settles O57: a charge adds to K and to one component alike, only a chest that passed the balance test raises W, and no
command lowers K. -/
theorem stepKeepsBulksBalanced : Obligations.StepKeepsBulksBalanced := fun _ _ hs h => step_bulksBalance hs h

end Sys2Proof.Machine
end

section
/-! PROOFS. The bulk commands (O19 to O22): each command's checks in their order, and what it leaves when it is taken. -/

namespace Sys2Proof.Machine

theorem Bulk.claims_iff {b : Bulk} {a : Nat} : b.claims a = true ↔ b.state = .charging ∧ ∃ c ∈ b.components, c.bin = a := by
  simp only [Bulk.claims, Bool.and_eq_true, beq_iff_eq, List.any_eq_true]

theorem Component.clear_iff {c : Component} : c.clear = true ↔ c.claim = .none := beq_iff_eq

theorem State.bulkIs_false {s : State} {k : Nat} {p : Bulk → Bool} (h : ∀ b, s.bulk? k = some b → p b ≠ true) :
    ¬ s.bulkIs k p = true := fun hp => by
  obtain ⟨b, hb, hp⟩ := State.bulkIs_iff.mp hp
  exact h b hb hp

theorem State.bulkIs_charging {s : State} {k : Nat} {b : Bulk} (hb : s.bulk? k = some b) (hst : b.state = .charging) :
    s.bulkIs k (fun b => b.state == .charging) = true := State.bulkIs_iff.mpr ⟨b, hb, beq_iff_eq.mpr hst⟩

/-! ## OPEN_BULK (R50, R51) -/

theorem OpenBulkParams.inRange_iff (p : OpenBulkParams) : p.inRange = true ↔
    1 ≤ p.number ∧ p.number ≤ 9999 ∧ 10000 ≤ p.planned ∧ p.planned ≤ 9999999 ∧ p.allowance ≤ 20 ∧
      textOk 6 p.grade = true ∧ 1 ≤ p.components.length ∧ p.components.length ≤ 6 ∧
      (∀ c ∈ p.components, textOk 6 c.source = true ∧ 1 ≤ c.bin ∧ c.bin ≤ 14) ∧
      (p.components.map ComponentParams.bin).Nodup := by
  simp only [OpenBulkParams.inRange, isAddress, Bool.and_eq_true, decide_eq_true_eq, List.all_eq_true, and_assoc]

theorem sharesOk_iff (cs : List ComponentParams) : sharesOk cs = true ↔
    (∀ c ∈ cs, c.minShare ≤ c.maxShare ∧ c.maxShare ≤ 1000) ∧ (cs.map ComponentParams.minShare).sum ≤ 1000 ∧
      1000 ≤ (cs.map ComponentParams.maxShare).sum := by
  simp only [sharesOk, Bool.and_eq_true, decide_eq_true_eq, List.all_eq_true, and_assoc]

/-- Two checks that refuse with one status are a single check. -/
theorem checked_merge (s : State) (x y : Bool) (st : Status) (checks : List (Bool × Status)) (effect : State × Reply) :
    checked s ((x, st) :: (y, st) :: checks) effect = checked s ((x && y, st) :: checks) effect := by
  cases x <;> rfl

/-- The bins of OPEN_BULK pass checks 5 and 6 of R50. -/
def State.binsOk (s : State) (cs : List ComponentParams) : Bool :=
  cs.all (fun c => s.isKind c.bin .bin) && cs.all (fun c => s.bulks.all (fun e => !e.2.claims c.bin))

/-- Within their range, the bins pass when each is a bin station that no CHARGING bulk names. -/
theorem State.binsOk_iff (s : State) {cs : List ComponentParams} (hr : ∀ c ∈ cs, 1 ≤ c.bin ∧ c.bin ≤ 14) :
    s.binsOk cs = true ↔ ∀ c ∈ cs, (s.station c.bin).kind = .bin ∧
      ∀ e ∈ s.bulks, e.2.state = .charging → ∀ d ∈ e.2.components, d.bin ≠ c.bin := by
  have named (c : ComponentParams) : (∀ e ∈ s.bulks, e.2.claims c.bin = false) ↔
      ∀ e ∈ s.bulks, e.2.state = .charging → ∀ d ∈ e.2.components, d.bin ≠ c.bin := by
    simp only [← Bool.not_eq_true, Bulk.claims_iff, not_and, not_exists, ne_eq]
  simp only [State.binsOk, State.isKind, Bool.and_eq_true, List.all_eq_true, Bool.not_eq_true', named, beq_iff_eq,
    decide_eq_true_eq]
  exact ⟨fun ⟨hkind, hfree⟩ c hc => ⟨(hkind c hc).2, hfree c hc⟩,
    fun h => ⟨fun c hc => ⟨hr c hc, (h c hc).1⟩, fun c hc => (h c hc).2⟩⟩

theorem openBulk_eq (p : OpenBulkParams) (s : State) :
    openBulk p s =
      if p.slot ≤ 15 then
        if s.bulk? p.slot = none then
          if p.inRange = true ∧ sharesOk p.components = true then
            if s.binsOk p.components = true then
              if ∀ e ∈ s.bulks, e.2.number ≠ p.number then okay (s.setBulk p.slot (some p.bulk)) []
              else refuse s .duplicate
            else refuse s .badState
          else refuse s .badValue
        else refuse s .badState
      else refuse s .noSuch := by
  rw [openBulk, checked_cons, checked_cons, checked_merge, checked_cons, checked_merge, checked_cons, checked_cons,
    checked_nil]
  simp only [Config.bulkSlots, decide_eq_true_eq, Nat.lt_succ_iff, Option.isNone_iff_eq_none, List.all_eq_true, bne_iff_ne,
    Bool.and_eq_true, State.binsOk]

/-- Settles O19, check by check of R50. -/
theorem bulkIsOpened : Obligations.BulkIsOpened := by
  intro s p hs h
  dsimp only
  rw [← OpenBulkParams.inRange_iff, ← sharesOk_iff]
  have bins (hr : p.inRange = true) := s.binsOk_iff (cs := p.components) fun c hc =>
    have ⟨_, _, _, _, _, _, _, _, hcs, _⟩ := p.inRange_iff.mp hr
    (hcs c hc).2
  refine ⟨fun hk => ?_, fun hk hb => ?_, fun hk hb => ⟨fun hbad => ?_, fun hr hsh hno => ?_,
    fun hr hsh hbins ⟨e, he, hn⟩ => ?_, fun hr hsh hbins hn => ?_⟩⟩
  · exact exec_refused hs h rfl (by rw [openBulk_eq, if_neg (by omega)])
  · exact exec_refused hs h rfl (by rw [openBulk_eq, if_pos hk, if_neg hb])
  · exact exec_refused hs h rfl (by rw [openBulk_eq, if_pos hk, if_pos hb, if_neg hbad])
  · exact exec_refused hs h rfl (by
      rw [openBulk_eq, if_pos hk, if_pos hb, if_pos ⟨hr, hsh⟩, if_neg fun hok => hno ((bins hr).mp hok)])
  · exact exec_refused hs h rfl (by
      rw [openBulk_eq, if_pos hk, if_pos hb, if_pos ⟨hr, hsh⟩, if_pos ((bins hr).mpr hbins),
        if_neg fun hall => hall e he hn])
  · have htaken := (openBulk_eq p s).trans (by
      rw [if_pos hk, if_pos hb, if_pos ⟨hr, hsh⟩, if_pos ((bins hr).mpr hbins), if_pos hn])
    refine ⟨_, exec_okay hs h rfl htaken, rfl, fun j hj => ?_, ?_⟩
    · rw [State.setBuffer_bulkOf, State.setBulk_bulk?, if_neg hj]
    · rw [State.setBuffer_bulkOf, State.setBulk_bulk?, if_pos rfl]; rfl

/-! ## MIX_BULK (R60, R61) -/

/-- A component lies outside its band of K (R61). -/
def Component.off (charged : Nat) (c : Component) : Bool := c.below charged || c.above charged

/-- The components outside their bands, each with its number from 1 (R60). -/
def Bulk.outside (b : Bulk) : List (Component × Nat) := (b.components.zipIdx 1).filter (fun e => e.1.off b.charged)

theorem offComponents_cons (charged n : Nat) (c : Component) (cs : List Component) :
    offComponents charged n (c :: cs) =
      if c.off charged then (n, c) :: offComponents charged (n + 1) cs else offComponents charged (n + 1) cs := rfl

theorem offComponents_eq (charged n : Nat) (cs : List Component) :
    offComponents charged n cs = ((cs.zipIdx n).filter (fun e => e.1.off charged)).map Prod.swap := by
  induction cs generalizing n with
  | nil => rfl
  | cons c cs ih =>
    by_cases hc : c.off charged = true
    · simp [offComponents_cons, List.zipIdx_cons, hc, ih]
    · simp [offComponents_cons, List.zipIdx_cons, hc, ih]

/-- A component named by OFF_RECIPE goes as its number, its charged mass and its side (R183). -/
theorem offData_eq (charged : Nat) (e : Component × Nat) :
    offData charged e.swap = byte e.2 :: (s4 e.1.charged ++ [bit (!e.1.below charged)]) := by
  have side : u1 (if e.1.below charged then 0 else 1) = [bit (!e.1.below charged)] := by
    cases e.1.below charged <;> rfl
  rw [offData, Prod.fst_swap, Prod.snd_swap, side, u1_eq, List.append_assoc, List.singleton_append]

/-- The data of OFF_RECIPE: the count, and each component outside its band (R60). -/
theorem listed_offData (charged : Nat) (l : List (Component × Nat)) : listed (offData charged) (l.map Prod.swap) =
    byte l.length :: l.flatMap (fun e => byte e.2 :: (s4 e.1.charged ++ [bit (!e.1.below charged)])) := by
  simp only [listed, List.length_map, List.flatMap_map, offData_eq, u1_eq, List.singleton_append]

/-- MIX_BULK past its checks: the recipe check against bulk `b`, and the mix of bulk `k` (R60, R61). -/
def State.mixOrName (s : State) (k force : Nat) (b : Bulk) : State × Reply :=
  if force = 0 ∧ b.outside ≠ [] then
    (s, { status := .offRecipe, data := listed (offData b.charged) (b.outside.map Prod.swap) })
  else okay (s.modBulk k fun c => { c with state := .mixed, offRecipe := c.offRecipe || decide (b.outside ≠ []) }) []

theorem mixBulk_eq (k force : Nat) (s : State) :
    mixBulk (k, force) s =
      if k ≤ 15 then
        if force ≤ 1 then
          if s.bulkIs k (fun b => b.state == .charging) = true then
            if ∀ c ∈ (s.bulkD k).components, c.claim = .none then
              if (s.bulkD k).charged ≠ 0 then s.mixOrName k force (s.bulkD k) else refuse s .badState
            else refuse s .inFlight
          else refuse s .badState
        else refuse s .badValue
      else refuse s .noSuch := by
  have hoff (b : Bulk) : offComponents b.charged 1 b.components = b.outside.map Prod.swap := offComponents_eq _ _ _
  have hempty (b : Bulk) : (!(b.outside.map Prod.swap).isEmpty) = decide (b.outside ≠ []) := by
    cases b.outside <;> rfl
  simp only [mixBulk, State.mixOrName, hoff, hempty, checked_cons, checked_nil, Config.bulkSlots, decide_eq_true_eq,
    Nat.lt_succ_iff, List.all_eq_true, Component.clear_iff, bne_iff_ne, ne_eq, List.map_eq_nil_iff]

/-- Settles O20: the checks of R60 in order, the components that OFF_RECIPE names, and the mix of R61. -/
theorem bulkIsMixed : Obligations.BulkIsMixed := by
  intro s k force hs h
  refine ⟨fun hk => ?_, fun hk hf => ?_, fun hk hf hno => ?_, fun b hk hf hb hst => ?_⟩
  · exact exec_refused hs h rfl (by rw [mixBulk_eq, if_neg (by omega)])
  · exact exec_refused hs h rfl (by rw [mixBulk_eq, if_pos hk, if_neg (by omega)])
  · have hshut := State.bulkIs_false fun b hb hst => hno b hb (beq_iff_eq.mp hst)
    exact exec_refused hs h rfl (by rw [mixBulk_eq, if_pos hk, if_pos hf, if_neg hshut])
  · have hmix := mixBulk_eq k force s
    rw [if_pos hk, if_pos hf, if_pos (State.bulkIs_charging hb hst), State.bulkD_eq hb] at hmix
    refine ⟨fun ⟨c, hc, hclaim⟩ => ?_, fun hclear => ⟨fun hzero => ?_, fun hpos hforce hout => ?_, fun hpos hgo => ?_⟩⟩
    · exact exec_refused hs h rfl (hmix.trans (if_neg fun hall => hclaim (hall c hc)))
    · exact exec_refused hs h rfl (hmix.trans (by rw [if_pos hclear, if_neg (not_not.mpr hzero)]))
    · have hexec : exec .mixBulk s = .next (takeCommand 0x21 readPair false mixBulk s) := rfl
      rw [if_pos hclear, if_pos hpos, State.mixOrName, if_pos ⟨hforce, hout⟩, listed_offData] at hmix
      rw [hexec, takeCommand_running false mixBulk h hs, hmix]
      rfl
    · have hdone : ¬ (force = 0 ∧ b.outside ≠ []) := fun ⟨hforce, hout⟩ => hgo.elim (fun h1 => by omega) hout
      rw [if_pos hclear, if_pos hpos, State.mixOrName, if_neg hdone] at hmix
      refine ⟨_, exec_okay hs h rfl hmix, rfl, fun j hj => ?_, ?_⟩
      · rw [State.setBuffer_bulkOf, State.modBulk_bulk?, if_neg hj]
      · rw [State.setBuffer_bulkOf, State.modBulk_self, hb]; rfl

/-! ## SETTLE_CHARGE (R59) -/

theorem Component.uncertain?_eq_some {c : Component} {g : Nat} : c.uncertain? = some g ↔ c.claim = .uncertain g := by
  unfold Component.uncertain?
  cases c.claim <;> simp

/-- The uncertain mass of component `n`, from 1 (R59). -/
def Bulk.uncertainOf (b : Bulk) (n : Nat) : Option Nat := (b.components[n - 1]?).bind Component.uncertain?

theorem settleCharge_eq (p : SettleParams) (s : State) :
    settleCharge p s =
      if p.slot ≤ 15 then
        if s.bulkIs p.slot (fun b => b.state == .charging) = true then
          if 1 ≤ p.component ∧ p.component ≤ (s.bulkD p.slot).components.length then
            if 0 ≤ p.mass ∧ p.mass ≤ 500000 then
              if ((s.bulkD p.slot).uncertainOf p.component).isSome = true then
                okay (s.countCharge p.slot (p.component - 1) p.mass.toNat
                  (((s.bulkD p.slot).uncertainOf p.component).getD 0)) []
              else refuse s .badState
            else refuse s .badValue
          else refuse s .noSuch
        else refuse s .badState
      else refuse s .noSuch := by
  simp only [settleCharge, Bulk.uncertainOf, checked_cons, checked_nil, Config.bulkSlots, decide_eq_true_eq,
    Nat.lt_succ_iff, Bool.and_eq_true]
  rfl

/-- Settles O21: the checks of R59 in order, and the charge counted against the uncertain mass. -/
theorem chargeIsSettled : Obligations.ChargeIsSettled := by
  intro s p hs h
  refine ⟨fun hk => ?_, fun hk hno => ?_, fun b hk hb hst => ?_⟩
  · exact exec_refused hs h rfl (by rw [settleCharge_eq, if_neg (by omega)])
  · have hshut := State.bulkIs_false fun b hb hst => hno b hb (beq_iff_eq.mp hst)
    exact exec_refused hs h rfl (by rw [settleCharge_eq, if_pos hk, if_neg hshut])
  · have hsettle := settleCharge_eq p s
    rw [if_pos hk, if_pos (State.bulkIs_charging hb hst), State.bulkD_eq hb] at hsettle
    refine ⟨fun hout => ?_, fun c h1 hc => ?_⟩
    · exact exec_refused hs h rfl (hsettle.trans (if_neg (by omega)))
    · have hlen : p.component - 1 < b.components.length := (List.getElem?_eq_some_iff.mp hc).1
      have hclaim : b.uncertainOf p.component = c.uncertain? := by rw [Bulk.uncertainOf, hc, Option.bind_some]
      rw [if_pos ⟨h1, by omega⟩, hclaim] at hsettle
      refine ⟨fun hm => ?_, fun h0 hm hno => ?_, fun g h0 hm hg => ?_⟩
      · exact exec_refused hs h rfl (hsettle.trans (if_neg (by omega)))
      · have hnone : c.uncertain? = none :=
          Option.eq_none_iff_forall_ne_some.mpr fun g hg => hno g (Component.uncertain?_eq_some.mp hg)
        exact exec_refused hs h rfl (hsettle.trans (by rw [if_pos ⟨h0, hm⟩, hnone]; rfl))
      · rw [if_pos ⟨h0, hm⟩, Component.uncertain?_eq_some.mpr hg, if_pos Option.isSome_some, Option.getD_some] at hsettle
        refine ⟨_, exec_okay hs h rfl hsettle, ?_, State.countCharge_counts hb hc⟩
        exact congrArg (State.setBuffer · _) (s.countCharge_eq _ _ _ _)

/-! ## SPEND_BULK and FREE_BULK (R65, R66) -/

theorem Lot.draws_iff {l : Lot} {k : Nat} :
    l.draws k = true ↔ l.bulk = k ∧ l.state ≠ .complete ∧ l.state ≠ .declared := by
  simp only [Lot.draws, Bool.and_eq_true, beq_iff_eq]
  cases l.state <;> simp

theorem spendBulk_eq (k : Nat) (s : State) :
    spendBulk k s =
      if k ≤ 15 then
        if s.bulkIs k (fun b => b.state == .mixed) = true then
          if ∀ e ∈ s.lots, ¬ e.2.draws k = true then okay (s.modBulk k (fun b => { b with state := .spent })) []
          else refuse s .badState
        else refuse s .badState
      else refuse s .noSuch := by
  simp only [spendBulk, checked_cons, checked_nil, Config.bulkSlots, decide_eq_true_eq, Nat.lt_succ_iff, List.all_eq_true,
    Bool.not_eq_true', Bool.not_eq_true]

theorem freeBulk_eq (k : Nat) (s : State) :
    freeBulk k s =
      if k ≤ 15 then
        if s.bulk? k ≠ none then
          if (s.bulkD k).lotRefs = 0 then
            if ∀ c ∈ (s.bulkD k).components, c.claim = .none then okay (s.setBulk k none) []
            else refuse s .inFlight
          else refuse s .badState
        else refuse s .badState
      else refuse s .noSuch := by
  simp only [freeBulk, checked_cons, checked_nil, Config.bulkSlots, decide_eq_true_eq, Nat.lt_succ_iff, List.all_eq_true,
    Option.isSome_iff_ne_none, beq_iff_eq, Component.clear_iff]

/-- Settles O22: the checks of R65 and of R66 in order; a bulk drawn on by no lot is spent, and one that nothing names and
that owes nothing is freed. -/
theorem bulkIsSpentOrFreed : Obligations.BulkIsSpentOrFreed := by
  intro s k hs
  refine ⟨fun h => ⟨fun hk => ?_, fun hk hno => ?_, fun b hk hb hst => ⟨fun ⟨e, he, hdraws⟩ => ?_, fun hfree => ?_⟩⟩,
    fun h => ⟨fun hk => ?_, fun hk hb => ?_, fun b hk hb =>
      ⟨fun href => ?_, fun href ⟨c, hc, hclaim⟩ => ?_, fun href hclear => ?_⟩⟩⟩
  · exact exec_refused hs h rfl (by rw [spendBulk_eq, if_neg (by omega)])
  · have hshut := State.bulkIs_false fun b hb hst => hno b hb (beq_iff_eq.mp hst)
    exact exec_refused hs h rfl (by rw [spendBulk_eq, if_pos hk, if_neg hshut])
  · have hmixed : s.bulkIs k (fun b => b.state == .mixed) = true := State.bulkIs_iff.mpr ⟨b, hb, beq_iff_eq.mpr hst⟩
    exact exec_refused hs h rfl (by
      rw [spendBulk_eq, if_pos hk, if_pos hmixed, if_neg fun hall => hall e he (Lot.draws_iff.mpr hdraws)])
  · have hmixed : s.bulkIs k (fun b => b.state == .mixed) = true := State.bulkIs_iff.mpr ⟨b, hb, beq_iff_eq.mpr hst⟩
    have hundrawn : ∀ e ∈ s.lots, ¬ e.2.draws k = true := fun e he hd => by
      obtain ⟨hbulk, hcomplete, hdeclared⟩ := Lot.draws_iff.mp hd
      exact (hfree e he hbulk).elim hcomplete hdeclared
    have htaken := (spendBulk_eq k s).trans (by rw [if_pos hk, if_pos hmixed, if_pos hundrawn])
    refine ⟨_, exec_okay hs h rfl htaken, rfl, fun j hj => ?_, ?_⟩
    · rw [State.setBuffer_bulkOf, State.modBulk_bulk?, if_neg hj]
    · rw [State.setBuffer_bulkOf, State.modBulk_self, hb]; rfl
  · exact exec_refused hs h rfl (by rw [freeBulk_eq, if_neg (by omega)])
  · exact exec_refused hs h rfl (by rw [freeBulk_eq, if_pos hk, if_neg (not_not.mpr hb)])
  · exact exec_refused hs h rfl (by
      rw [freeBulk_eq, State.bulkD_eq hb, if_pos hk, if_pos (by simp [hb]), if_neg href])
  · exact exec_refused hs h rfl (by
      rw [freeBulk_eq, State.bulkD_eq hb, if_pos hk, if_pos (by simp [hb]), if_pos href,
        if_neg fun hall => hclaim (hall c hc)])
  · have htaken := (freeBulk_eq k s).trans (by
      rw [State.bulkD_eq hb, if_pos hk, if_pos (by simp [hb]), if_pos href, if_pos hclear])
    refine ⟨_, exec_okay hs h rfl htaken, rfl, fun j hj => ?_, ?_⟩
    · rw [State.setBuffer_bulkOf, State.setBulk_bulk?, if_neg hj]
    · rw [State.setBuffer_bulkOf, State.setBulk_self]

end Sys2Proof.Machine
end

section
/-! PROOFS. The calls of a bin (O23, O24): the component that a call is matched to, the first case that applies, and what
the answer leaves. -/

namespace Sys2Proof.Machine

/-! ## The component of a bin's call (R52) -/

theorem State.chargeTarget_none {s : State} {a : Nat}
    (h : ∀ e ∈ s.bulks, e.2.state = .charging → ∀ c ∈ e.2.components, c.bin ≠ a) : s.chargeTarget a = none := by
  have hfree : s.bulkOf a = none := Table.find_eq_none fun e he => by
    rw [← Bool.not_eq_true, Bulk.claims_iff]
    exact fun ⟨hst, c, hc, hbin⟩ => h e he hst c hc hbin
  rw [State.chargeTarget, hfree, Option.bind_none]

theorem State.chargeTarget_charges {s : State} {k a i : Nat} {b : Bulk} {c : Component} (h : s.charges k b i c a) :
    s.chargeTarget a = some (k, b, i, c) := by
  obtain ⟨-, hof, hc, hbin, hfirst⟩ := h
  obtain ⟨hlen, hget⟩ := List.getElem?_eq_some_iff.mp hc
  have hindex : b.components.findIdx? (fun c => c.bin == a) = some i := by
    refine List.findIdx?_eq_some_iff_getElem.mpr ⟨hlen, beq_iff_eq.mpr (hget ▸ hbin), fun j hj => ?_⟩
    rw [beq_iff_eq]
    exact hfirst j hj _ (List.getElem?_eq_getElem (hj.trans hlen))
  rw [State.chargeTarget, hof, Option.bind_some, Bulk.componentOf, hindex, Option.bind_some, hc]
  rfl

/-! ## Answers -/

/-- What an answer alone changes: the caller's slot, its answers and its wait. -/
theorem State.answerCall_eq (s : State) (a : Nat) (code : AnswerCode) (v : Nat) :
    s.answerCall a code v =
      { s with stations := (s.answerCall a code v).stations, waits := (s.answerCall a code v).waits } := rfl

theorem Join.hears_active {j : Join} (h : j = .active) : j.hears = true := h ▸ rfl

/-- A call answered by a code alone. -/
theorem State.answersOnly {s t : State} {a v : Nat} {code : AnswerCode} (hj : (s.station a).join = .active)
    (ht : t = s.answerCall a code v) :
    t = { s with stations := t.stations, waits := t.waits } ∧ s.answersCall t a (.answer code v) := by
  subst ht
  exact ⟨s.answerCall_eq a code v, s.answersCall_answerCall a code v (Join.hears_active hj)⟩

/-! ## The first case that applies (R52, R55) -/

/-- The state after the grant of `g` grams to component `i` of the bulk in slot `k` answers a bin's call (R52). -/
def State.granted (s : State) (a k i g : Nat) : State :=
  ((s.modBulk k (fun b => b.grant i g)).clearSlot a).placeResult a (.grant g)

section Matched

variable {s : State} {a k i : Nat} {b : Bulk} {c : Component}

theorem State.answerCharge_noBulk (q : Nat) (h : s.chargeTarget a = none) :
    s.answerCharge a q = s.answerCall a .noBulk 0 := by
  rw [State.answerCharge, h]

theorem State.answerCharge_uncertain {m : Nat} (q : Nat) (h : s.chargeTarget a = some (k, b, i, c))
    (hm : c.claim = .uncertain m) : s.answerCharge a q = s.answerCall a .uncertain 0 := by
  simp only [State.answerCharge, h, hm]

theorem State.answerCharge_inFlight {m : Nat} (q : Nat) (h : s.chargeTarget a = some (k, b, i, c))
    (hm : c.claim = .grant m) : s.answerCharge a q = s.answerCall a .inFlight 0 := by
  simp only [State.answerCharge, h, hm]

theorem State.answerCharge_full {q top : Nat} (h : s.chargeTarget a = some (k, b, i, c)) (hm : c.claim = .none)
    (htop : (s.station a).abilities = some (.bin top)) (hg : grantFor b c q top ≤ 0) :
    s.answerCharge a q = s.answerCall a .full 0 := by
  have hmax : (s.station a).maxCharge = top := by rw [Station.maxCharge, htop]
  simp only [State.answerCharge, h, hm, hmax, if_pos hg]

theorem State.answerCharge_granted {q top : Nat} (h : s.chargeTarget a = some (k, b, i, c)) (hm : c.claim = .none)
    (htop : (s.station a).abilities = some (.bin top)) (hg : 0 < grantFor b c q top) :
    s.answerCharge a q = s.granted a k i (grantFor b c q top).toNat := by
  have hmax : (s.station a).maxCharge = top := by rw [Station.maxCharge, htop]
  simp only [State.answerCharge, h, hm, hmax, if_neg (not_le.mpr hg), State.granted]

theorem State.answerDone_noBulk (m : Nat) (h : s.chargeTarget a = none) :
    s.answerDone a m = s.answerCall a .noBulk 0 := by
  rw [State.answerDone, h]

theorem State.answerDone_uncertain {g : Nat} (m : Nat) (h : s.chargeTarget a = some (k, b, i, c))
    (hg : c.claim = .uncertain g) : s.answerDone a m = s.answerCall a .uncertain 0 := by
  simp only [State.answerDone, h, hg]

/-- A done call is counted against the grant in flight, or against nothing. -/
theorem State.answerDone_counted {g : Nat} (m : Nat) (h : s.chargeTarget a = some (k, b, i, c))
    (hg : c.claim = .grant g ∨ (c.claim = .none ∧ g = 0)) :
    s.answerDone a m = (s.countCharge k i m g).answerCall a .chargeCounted (bump c.count) := by
  obtain hg | ⟨hg, rfl⟩ := hg
  · simp only [State.answerDone, h, hg]
  · simp only [State.answerDone, h, hg]

end Matched

/-! ## CALL_CHARGE (R52, R53) -/

theorem exec_callCharge {s : State} {a q : Nat} (hp : s.part = .running) (h1 : 1 ≤ a) (h2 : a ≤ 14)
    (hslot : (s.station a).slot = some (.charge q)) : exec (.callCharge a) s = .next (s.answerCharge a q) :=
  congrArg Host.Outcome.next (takeFrom_taken hp h1 h2 hslot rfl)

/-- A bulk whose component `i` is given a grant. -/
theorem Bulk.grant_eq {b : Bulk} {i : Nat} {c : Component} (hc : b.components[i]? = some c) (g : Nat) :
    b.grant i g = { b with components := b.components.set i { c with claim := .grant g } } := by
  rw [Bulk.grant, List.modify_eq_set_getElem?, hc]
  rfl

/-- A grant is written in its bulk and answers the call, and nothing else changes. -/
theorem State.granted_spec {s : State} {k a i : Nat} {b : Bulk} {c : Component} (hj : (s.station a).join = .active)
    (hb : s.bulk? k = some b) (hc : b.components[i]? = some c) (g : Nat) :
    let t := s.granted a k i g
    t = { s with stations := t.stations, waits := t.waits, bulks := t.bulks } ∧ s.answersCall t a (.grant g) ∧
      (∀ j, j ≠ k → t.bulk? j = s.bulk? j) ∧
      t.bulk? k = some { b with components := b.components.set i { c with claim := .grant g } } := by
  refine ⟨rfl, ?_, fun j hj => ?_, ?_⟩
  · exact State.answersCall_congr (State.answersCall_placed (s.modBulk k _) a _ (Join.hears_active hj)) (fun _ => rfl)
      (fun _ => rfl) (fun _ => rfl) fun _ => rfl
  · rw [State.granted, State.placeResult_bulkOf, State.clearSlot_bulkOf, State.modBulk_bulk?, if_neg hj]
  · rw [State.granted, State.placeResult_bulkOf, State.clearSlot_bulkOf, State.modBulk_self, hb, Option.map_some,
      Bulk.grant_eq hc]

/-- Settles O23: the cases of R52 by the component's claim, and the grant of R53. -/
theorem chargeIsGranted : Obligations.ChargeIsGranted := by
  intro s a q hp h1 h2 hj hslot
  have hexec := exec_callCharge hp h1 h2 hslot
  refine ⟨fun hno => ⟨_, hexec, ?_⟩, fun k b i c top hcharges htop => ⟨_, hexec, ?_⟩⟩
  · exact State.answersOnly hj (State.answerCharge_noBulk q (State.chargeTarget_none hno))
  · have htarget := State.chargeTarget_charges hcharges
    obtain ⟨hb, -, hc, -, -⟩ := hcharges
    refine ⟨fun m hm => ?_, fun m hm => ?_, fun hm hg => ?_, fun hm hg => ?_⟩
    · exact State.answersOnly hj (State.answerCharge_uncertain q htarget hm)
    · exact State.answersOnly hj (State.answerCharge_inFlight q htarget hm)
    · exact State.answersOnly hj (State.answerCharge_full htarget hm htop hg)
    · rw [State.answerCharge_granted htarget hm htop hg]
      exact State.granted_spec hj hb hc _

/-! ## CALL_DONE (R55, R56) -/

theorem exec_callDone {s : State} {a m : Nat} (hp : s.part = .running) (h1 : 1 ≤ a) (h2 : a ≤ 14)
    (hslot : (s.station a).slot = some (.done m)) : exec (.callDone a) s = .next (s.answerDone a m) :=
  congrArg Host.Outcome.next (takeFrom_taken hp h1 h2 hslot rfl)

/-- The charge is counted and its number answers the call. -/
theorem State.countCharge_answered {s : State} {k a i m g v : Nat} {b : Bulk} {c : Component}
    (hj : (s.station a).join = .active) (hb : s.bulk? k = some b) (hc : b.components[i]? = some c) :
    let t := (s.countCharge k i m g).answerCall a .chargeCounted v
    t = { s with stations := t.stations, waits := t.waits, bulks := t.bulks, notices := t.notices } ∧
      s.answersCall t a (.answer .chargeCounted v) ∧ s.countsCharge t k b i c m g := by
  have hframe := s.countCharge_eq k i m g
  have hcounts := State.countCharge_counts (m := m) (g := g) hb hc
  dsimp only
  generalize s.countCharge k i m g = u at *
  have hstation (x : Nat) : u.station x = s.station x := by rw [hframe]; rfl
  have hwait (x : Nat) : u.wait x = s.wait x := by rw [hframe]; rfl
  refine ⟨?_, ?_, ?_⟩
  · rw [u.answerCall_eq, hframe]
  · exact State.answersCall_congr (State.answersOnly ((congrArg _ (hstation a)).trans hj) rfl).2 hstation hwait
      (fun _ => rfl) fun _ => rfl
  · exact hcounts

/-- Settles O24: the cases of R55 by the component's claim, and the charge counted against its grant. -/
theorem chargeIsCounted : Obligations.ChargeIsCounted := by
  intro s a m hp h1 h2 hj hslot
  have hexec := exec_callDone hp h1 h2 hslot
  refine ⟨fun hno => ⟨_, hexec, ?_⟩, fun k b i c hcharges => ⟨_, hexec, ?_⟩⟩
  · exact State.answersOnly hj (State.answerDone_noBulk m (State.chargeTarget_none hno))
  · have htarget := State.chargeTarget_charges hcharges
    obtain ⟨hb, -, hc, -, -⟩ := hcharges
    refine ⟨fun g hg => ?_, fun g hg => ?_⟩
    · exact State.answersOnly hj (State.answerDone_uncertain m htarget hg)
    · rw [State.answerDone_counted m htarget hg]
      exact State.countCharge_answered hj hb hc

end Sys2Proof.Machine
end

section
/-! PROOFS. The lane commands but the forced hold (O32, O33, O34, O36): each command's checks in their order, and the
lane and lot that it leaves. -/

namespace Sys2Proof.Machine

theorem isLane_iff {n : Nat} : isLane n = true ↔ 1 ≤ n ∧ n ≤ 8 := by
  simp only [isLane, Bool.and_eq_true, decide_eq_true_eq]

theorem State.isActive_iff {s : State} {a : Nat} : s.isActive a = true ↔ (s.station a).join = .active := beq_iff_eq

theorem State.isKind_iff {s : State} {a : Nat} {k : StationKind} (ha : 1 ≤ a ∧ a ≤ 14) :
    s.isKind a k = true ↔ (s.station a).kind = k := by
  simp [State.isKind, ha.1, ha.2]

theorem LaneState.isHeld_iff {st : LaneState} : st.isHeld = true ↔ ∃ r, st = .held r := by
  cases st <;> simp [LaneState.isHeld]

theorem VerifyState.fit_iff {v : VerifyState} :
    v.fit = true ↔ (∃ t, v = .at (.verified t)) ∨ ∃ g, v = .at (.due g) := by
  rcases v with (_ | _ | _ | _) | _ <;> simp [VerifyState.fit]

theorem State.classWindow_iff {s : State} {k : Nat} :
    (s.classD k).window.isSome = true ↔ ∃ c w, s.class? k = some c ∧ c.window = some w := by
  unfold State.classD
  cases s.class? k with
  | none => simp [TareClass.blank]
  | some c => simp [Option.isSome_iff_exists]

/-! ## The lot of a lane's target (R7) -/

/-- A change of the lot that a target names, if it names one. -/
def State.modTarget (s : State) (target : LaneTarget) (f : Lot → Lot) : State :=
  match target with
  | .lot k _ => s.modLot k f
  | .hold => s

section Target

variable (s : State) (target : LaneTarget) (f : Lot → Lot)

theorem State.modTarget_eq : s.modTarget target f = { s with lots := (s.modTarget target f).lots } := by
  cases target <;> rfl

theorem State.modTarget_lane? (n : Nat) : (s.modTarget target f).lane? n = s.lane? n := by
  cases target <;> rfl

theorem State.modTarget_wait (a : Nat) : (s.modTarget target f).wait a = s.wait a := by
  cases target <;> rfl

theorem State.modTarget_own {k a : Nat} {l : Lot} (ht : target = .lot k a) (hl : s.lot? k = some l) :
    (s.modTarget target f).lot? k = some (f l) := by
  subst ht
  exact (State.modLot_self s k f).trans (congrArg (Option.map f) hl)

theorem State.modTarget_other {k : Nat} (h : ∀ a, target ≠ .lot k a) : (s.modTarget target f).lot? k = s.lot? k := by
  cases target with
  | lot j a =>
    have hk : k ≠ j := fun he => h a (he ▸ rfl)
    exact (State.modLot_lot? s j k f).trans (if_neg hk)
  | hold => rfl

end Target

/-! ## MAP_LANE (R72, R73) -/

/-- The class of a lane mapped to a target: the lot's, or the one that the command names for HOLD (R73). -/
def State.classFor (s : State) (target : LaneTarget) (named : Option Nat) : Nat :=
  match target with
  | .lot k _ => (s.lotD k).tareClass
  | .hold => named.getD 0

/-- The lane that MAP_LANE makes (R73). -/
def State.newLane (s : State) (p : MapLaneParams) (target : LaneTarget) (cls : Nat) : Lane :=
  { state := s.firstLaneState p.scale target, target := target, scale := p.scale, tareMode := tareModeOf p.tareMode
    tareClass := cls, pendingTare := none, watch := p.watch == 1, oneShot := false, tentative := none }

/-- The stencil station that a target names is of its kind. -/
def State.stencilIs (s : State) : LaneTarget → Bool
  | .lot _ a => s.isKind a .stencil
  | .hold => true

/-- Checks 3 to 6 of R72: the lane is unmapped, the target may take it, and the stations are of their kinds. -/
def State.mayMap (s : State) (n a : Nat) (target : LaneTarget) (cls : Nat) : Bool :=
  (s.lane? n).isNone && s.mayFeed target && (target != .hold || (s.class? cls).isSome) &&
    (s.isKind a .scale && s.stencilIs target)

theorem State.mayFeed_lot {s : State} {k h : Nat} : s.mayFeed (.lot k h) = true ↔ ∃ l b, s.lot? k = some l ∧
    (l.state = .opened ∨ l.state = .packing) ∧ s.bulk? l.bulk = some b ∧ b.state = .mixed := by
  simp only [State.mayFeed, State.lotIs_iff, State.bulkIs_iff, Bool.and_eq_true, Lot.takesChests_iff, beq_iff_eq]
  exact exists_congr fun l =>
    ⟨fun ⟨hl, ht, b, hb, hm⟩ => ⟨b, hl, ht, hb, hm⟩, fun ⟨b, hl, ht, hb, hm⟩ => ⟨hl, ht, b, hb, hm⟩⟩

theorem State.mayMap_iff {s : State} {n a cls : Nat} {target : LaneTarget} (ha : 1 ≤ a ∧ a ≤ 14)
    (hh : ∀ k h, target = .lot k h → 1 ≤ h ∧ h ≤ 14) :
    s.mayMap n a target cls = true ↔ s.lane? n = none ∧
      (∀ k h, target = .lot k h → (s.station h).kind = .stencil ∧ ∃ l b, s.lot? k = some l ∧
        (l.state = .opened ∨ l.state = .packing) ∧ s.bulk? l.bulk = some b ∧ b.state = .mixed) ∧
      (target = .hold → s.class? cls ≠ none) ∧ (s.station a).kind = .scale := by
  simp only [State.mayMap, Bool.and_eq_true, Option.isNone_iff_eq_none, State.isKind_iff ha]
  cases target with
  | lot k h =>
    have hkind : s.stencilIs (.lot k h) = true ↔ (s.station h).kind = .stencil := State.isKind_iff (hh k h rfl)
    constructor
    · rintro ⟨⟨⟨hfree, hfeed⟩, -⟩, hscale, hstencil⟩
      refine ⟨hfree, fun k' h' he => ?_, nofun, hscale⟩
      cases he
      exact ⟨hkind.mp hstencil, State.mayFeed_lot.mp hfeed⟩
    · rintro ⟨hfree, hlot, -, hscale⟩
      obtain ⟨hstencil, hfeed⟩ := hlot k h rfl
      exact ⟨⟨⟨hfree, State.mayFeed_lot.mpr hfeed⟩, rfl⟩, hscale, hkind.mpr hstencil⟩
  | hold => simp [State.mayFeed, State.stencilIs, Option.isSome_iff_ne_none, and_assoc]

theorem mapLane_noSuch {p : MapLaneParams} {s : State} (hn : ¬ (1 ≤ p.lane ∧ p.lane ≤ 8)) :
    mapLane p s = refuse s .noSuch := by
  rw [mapLane, checked_cons, if_neg (mt isLane_iff.mp hn)]

/-- Check 2 of R72. -/
theorem mapLane_badValue {p : MapLaneParams} {s : State} (hn : 1 ≤ p.lane ∧ p.lane ≤ 8)
    (hbad : p.target?.isNone = true ∨ ¬ (1 ≤ p.scale ∧ p.scale ≤ 14) ∨ 1 < p.tareMode ∨ 1 < p.watch) :
    mapLane p s = refuse s .badValue := by
  rw [mapLane, checked_cons, if_pos (isLane_iff.mpr hn), checked_cons, if_neg]
  simp only [Bool.and_eq_true, decide_eq_true_eq]
  rintro ⟨⟨⟨htarget, hscale⟩, hmode⟩, hwatch⟩
  rcases hbad with hnone | hbad
  · rw [Option.isNone_iff_eq_none.mp hnone] at htarget
    cases htarget
  · omega

/-- MAP_LANE past its first two checks. -/
theorem mapLane_named {p : MapLaneParams} {s : State} {target : LaneTarget} {named : Option Nat}
    (hn : 1 ≤ p.lane ∧ p.lane ≤ 8) (ha : 1 ≤ p.scale ∧ p.scale ≤ 14) (hm : p.tareMode ≤ 1) (hw : p.watch ≤ 1)
    (ht : p.target? = some (target, named)) {cls : Nat} (hcls : s.classFor target named = cls) :
    mapLane p s =
      if s.mayMap p.lane p.scale target cls = true then
        if ∀ e ∈ s.lanes, e.2.scale ≠ p.scale then
          if p.tareMode = 0 ∨ (s.classD cls).window.isSome = true then
            okay ((s.setLane p.lane (some (s.newLane p target cls))).modTarget target Lot.mapped)
              (u1 (s.firstLaneState p.scale target).code ++
                optional 1 ((s.firstLaneState p.scale target).reason.map LaneHold.code))
          else refuse s .badState
        else refuse s .duplicate
      else refuse s .badState := by
  have hlane : isLane p.lane = true := isLane_iff.mpr hn
  have hscale : isAddress p.scale = true := by simp [ha]
  subst hcls
  simp only [mapLane, ht, Option.getD_some, checked_cons, checked_nil, hlane, hscale, hm, hw, Option.isSome_some,
    decide_true, Bool.and_self, if_true, State.mayMap, Bool.and_eq_true, ite_and, List.all_eq_true, bne_iff_ne,
    Bool.or_eq_true, decide_eq_true_eq]
  cases target <;> rfl

/-- The target that the parameters of MAP_LANE name, and the class of its lane. -/
theorem MapLaneParams.target?_named {s : State} {p : MapLaneParams} {target : LaneTarget} {cls : Nat}
    (h : (∃ k a, p.target = k ∧ k ≤ 47 ∧ p.stencil = some (some a) ∧ 1 ≤ a ∧ a ≤ 14 ∧ p.tareClass = some none ∧
        target = .lot k a ∧ cls = (s.lotD k).tareClass) ∨
      (p.target = 255 ∧ p.stencil = some none ∧ p.tareClass = some (some cls) ∧ cls ≤ 7 ∧ target = .hold)) :
    (∀ k a, target = .lot k a → 1 ≤ a ∧ a ≤ 14) ∧
      ∃ named, p.target? = some (target, named) ∧ s.classFor target named = cls := by
  rcases h with ⟨k, a, rfl, hk, hstencil, h1, h14, hclass, rfl, rfl⟩ | ⟨h255, hstencil, hclass, h7, rfl⟩
  · refine ⟨fun k' a' he => ?_, none, ?_, rfl⟩
    · cases he
      exact ⟨h1, h14⟩
    · have hslot : p.target < Config.lotSlots ∧ isAddress a = true := ⟨Nat.lt_succ_iff.mpr hk, by simp [h1, h14]⟩
      simp only [MapLaneParams.target?, hstencil, hclass, if_pos hslot]
  · refine ⟨nofun, some cls, ?_, rfl⟩
    have hnumber : p.target = 255 ∧ cls < Config.tareClasses := ⟨h255, Nat.lt_succ_iff.mpr h7⟩
    simp only [MapLaneParams.target?, hstencil, hclass, if_pos hnumber]

theorem optional_one (o : Option Nat) : optional 1 o = [bit o.isSome, byte (o.getD 0)] := by
  cases o <;> rfl

/-- Settles O32: the checks of R72 in order, and the lane of R73 with its lot. -/
theorem laneIsMapped : Obligations.LaneIsMapped := by
  intro s p hs h
  refine ⟨fun hn => exec_refused hs h rfl (mapLane_noSuch hn),
    fun h1 h8 hbad => exec_refused hs h rfl (mapLane_badValue ⟨h1, h8⟩ hbad),
    fun target cls h1 h8 ha1 ha14 hm hw hform => ?_⟩
  intro fed windowed headless st
  obtain ⟨haddress, named, htarget, hcls⟩ := MapLaneParams.target?_named hform
  have hmap := mapLane_named (s := s) ⟨h1, h8⟩ ⟨ha1, ha14⟩ hm hw htarget hcls
  have hst : s.firstLaneState p.scale target = st := by
    dsimp only [st, headless, State.firstLaneState, State.isActive]
    by_cases hscale : (s.station p.scale).join = .active
    · cases target <;> rcases (s.verification p.scale).state with (_ | _ | _ | _) | _ <;>
        simp [hscale, VerifyState.isTesting]
    · simp [hscale]
  have hfed : s.mayMap p.lane p.scale target cls = true ↔ fed := State.mayMap_iff ⟨ha1, ha14⟩ haddress
  have hwindowed : (p.tareMode = 0 ∨ (s.classD cls).window.isSome = true) ↔ windowed :=
    or_congr_right State.classWindow_iff
  refine ⟨fun hno => ?_, fun hyes hdup => ?_, fun hyes hnew hno => ?_, fun hyes hnew hwin => ?_⟩
  · exact exec_refused hs h rfl (hmap.trans (if_neg (mt hfed.mp hno)))
  · obtain ⟨e, he, hsame⟩ := hdup
    exact exec_refused hs h rfl (hmap.trans (by rw [if_pos (hfed.mpr hyes), if_neg fun hall => hall e he hsame]))
  · exact exec_refused hs h rfl (hmap.trans (by
      rw [if_pos (hfed.mpr hyes), if_pos hnew, if_neg (mt hwindowed.mp hno)]))
  · rw [if_pos (hfed.mpr hyes), if_pos hnew, if_pos (hwindowed.mpr hwin), hst] at hmap
    have hframe := (s.setLane p.lane (some (s.newLane p target cls))).modTarget_eq target Lot.mapped
    refine ⟨_, exec_okay hs h rfl hmap, ?_, fun m hm => ?_, ?_, fun k hk => ?_, fun k a l ht hl => ?_⟩
    · rw [hframe, optional_one, Option.isSome_map]
      rfl
    · rw [State.setBuffer_laneOf, State.modTarget_lane?, State.setLane_lane?, if_neg hm]
    · rw [State.setBuffer_laneOf, State.modTarget_lane?, State.setLane_self, State.newLane, hst]
      rfl
    · exact State.modTarget_other _ target _ hk
    · exact State.modTarget_own _ target _ ht hl

/-! ## UNMAP_LANE (R74, R7) -/

theorem unmapLaneCommand_eq (n : Nat) (s : State) :
    unmapLaneCommand n s =
      if 1 ≤ n ∧ n ≤ 8 then
        if (s.lane? n).isSome = true then
          if (s.laneD n).tentative = none then okay (s.unmapLane n) [] else refuse s .inFlight
        else refuse s .badState
      else refuse s .noSuch := by
  simp only [unmapLaneCommand, checked_cons, checked_nil, isLane_iff, Option.isNone_iff_eq_none]

theorem State.unmapLane_mapped {s : State} {n : Nat} {l : Lane} (hl : s.lane? n = some l) :
    s.unmapLane n = ((s.setLane n none).setWait l.scale .none).modTarget l.target Lot.unmapped := by
  unfold State.unmapLane
  rw [hl]
  dsimp only
  cases l.target <;> rfl

/-- Settles O33: the checks of R74 in order; the lane, its scale's wait and its lot's count are given up. -/
theorem laneIsUnmapped : Obligations.LaneIsUnmapped := by
  intro s n hs h
  refine ⟨fun hn => ?_, fun h1 h8 hno => ?_, fun l h1 h8 hl => ?_⟩
  · exact exec_refused hs h rfl (by rw [unmapLaneCommand_eq, if_neg hn])
  · exact exec_refused hs h rfl (by rw [unmapLaneCommand_eq, if_pos ⟨h1, h8⟩, if_neg (by simp [hno])])
  · have hunmap := unmapLaneCommand_eq n s
    rw [if_pos ⟨h1, h8⟩, if_pos (by simp [hl]), State.laneD_eq hl] at hunmap
    refine ⟨fun hbusy => exec_refused hs h rfl (hunmap.trans (if_neg hbusy)), fun hfree => ?_⟩
    rw [if_pos hfree, State.unmapLane_mapped hl] at hunmap
    have hframe := ((s.setLane n none).setWait l.scale .none).modTarget_eq l.target Lot.unmapped
    refine ⟨_, exec_okay hs h rfl hunmap, ?_, fun b => ?_, ?_, fun m hm => ?_, fun k hk => ?_, fun k a u ht hu => ?_⟩
    · rw [hframe]
      rfl
    · rw [State.setBuffer_wait, State.modTarget_wait, State.setWait_wait, State.setLane_wait]
    · rw [State.setBuffer_laneOf, State.modTarget_lane?, State.setWait_laneOf, State.setLane_self]
    · rw [State.setBuffer_laneOf, State.modTarget_lane?, State.setWait_laneOf, State.setLane_lane?, if_neg hm]
    · exact State.modTarget_other _ l.target _ hk
    · exact State.modTarget_own _ l.target _ ht hu

/-! ## HOLD_LANE without force (R80, R81) -/

/-- The frames of code 0x42 are told apart by their option byte (assumption 9). -/
theorem State.latchedForce_eq {s : State} {n f : Nat} (h : s.latches 0x42 readPair (n, f)) :
    s.latchedForce = (f == 1) := by
  obtain ⟨rest, hlatched, hread⟩ := State.latches_latched h
  unfold State.latchedForce
  rw [hlatched]
  dsimp only
  rw [hread]
  rfl

theorem exec_holdLane {s : State} {n f : Nat} (h : s.latches 0x42 readPair (n, f)) (hf : f ≠ 1) :
    exec .holdLane s = .next (takeCommand 0x42 readPair false holdLane s) := by
  have hrow : exec .holdLane s = .next (if s.latchedForce then s else takeCommand 0x42 readPair false holdLane s) := rfl
  rw [hrow, State.latchedForce_eq h, if_neg (by simpa using hf)]

theorem holdLane_eq (n f : Nat) (s : State) :
    holdLane (n, f) s =
      if 1 ≤ n ∧ n ≤ 8 then
        if f ≤ 1 then
          if (s.lane? n).isSome = true then
            okay (s.holdCause n .host false)
              (u1 ((s.holdCause n .host false).laneD n).state.code ++ (s.holdCause n .host false).reasonData n)
          else refuse s .badState
        else refuse s .badValue
      else refuse s .noSuch := by
  simp only [holdLane, checked_cons, checked_nil, isLane_iff, decide_eq_true_eq]

theorem State.workInFlight_iff {s : State} {l : Lane} :
    s.workInFlight l = true ↔ l.tentative ≠ none ∨ s.wait l.scale ≠ .none := by
  simp only [State.workInFlight, Bool.or_eq_true, Option.isSome_iff_ne_none, bne_iff_ne]

/-- A lane once the host has held it: pending while it has work in flight (R80). -/
def Lane.hostHeld (l : Lane) (busy : Bool) : Lane :=
  if l.state = .running then
    { l with state := if busy then .holdPending .host else .held .host, oneShot := false }
  else l

/-- HOLD_LANE changes the lane alone. -/
theorem State.holdCause_host {s : State} {n : Nat} {l : Lane} (hl : s.lane? n = some l) :
    let t := s.holdCause n .host false
    t = { s with lanes := t.lanes } ∧
      ∀ m, t.lane? m = if m = n then some (l.hostHeld (s.workInFlight l)) else s.lane? m := by
  unfold State.holdCause Lane.hostHeld
  rw [hl]
  dsimp only
  by_cases hrun : l.state = .running
  · by_cases hbusy : s.workInFlight l = true
    · rw [if_pos hrun, if_pos hbusy, if_pos hrun, if_pos hbusy]
      exact ⟨rfl, fun m => State.setLane_lane? s n m _⟩
    · rw [if_pos hrun, if_neg hbusy, if_pos hrun, if_neg hbusy]
      exact ⟨rfl, fun m => State.setLane_lane? s n m _⟩
  · rw [if_neg hrun, if_neg hrun]
    refine ⟨rfl, fun m => ?_⟩
    split
    · next hm => rw [hm, hl]
    · rfl

/-- The answer of HOLD_LANE: the lane's state and its reason. -/
theorem State.holdData {s : State} {n : Nat} {l : Lane} {r : LaneHold} (hl : s.lane? n = some l)
    (hr : l.state.reason = some r) :
    u1 (s.laneD n).state.code ++ s.reasonData n = [byte l.state.code, byte r.code] := by
  rw [State.reasonData, State.laneD_eq hl, hr]
  rfl

/-- HOLD_LANE of a mapped lane, with the lane `l'` and the answer that it leaves. -/
theorem exec_holdLane_mapped {s : State} {n : Nat} {l l' : Lane} {r : LaneHold} (hs : s.part = .running)
    (h : s.latches 0x42 readPair (n, 0)) (hn : 1 ≤ n ∧ n ≤ 8) (hl : s.lane? n = some l)
    (hheld : l.hostHeld (s.workInFlight l) = l') (hr : l'.state.reason = some r) :
    ∃ t, exec .holdLane s = .next t ∧ t = { s with lanes := t.lanes, buffer := t.buffer } ∧
      (∀ m, m ≠ n → t.lane? m = s.lane? m) ∧
      t.lane? n = some l' ∧ t.buffer = answer 0x42 0x00 [byte l'.state.code, byte r.code] := by
  obtain ⟨hframe, hlane⟩ := State.holdCause_host hl
  have hown := (hlane n).trans ((if_pos rfl).trans (congrArg some hheld))
  have htaken := holdLane_eq n 0 s
  rw [if_pos hn, if_pos zero_le_one, if_pos (by simp [hl]), State.holdData hown hr] at htaken
  generalize s.holdCause n .host false = u at *
  have hother (m : Nat) (hm : m ≠ n) : u.lane? m = s.lane? m := (hlane m).trans (if_neg hm)
  refine ⟨_, exec_okay hs h (exec_holdLane h zero_ne_one) htaken, ?_, hother, hown, rfl⟩
  rw [hframe]
  rfl

/-- Settles O34: the checks of R81 in order, and the lane by its state. -/
theorem laneIsHeld : Obligations.LaneIsHeld := by
  intro s n f hs h hf
  have hexec := exec_holdLane h hf
  refine ⟨fun hn => ?_, fun h1 h8 hbad => ?_, fun h1 h8 hzero hno => ?_, fun l h1 h8 hzero hl => ?_⟩
  · exact exec_refused hs h hexec (by rw [holdLane_eq, if_neg hn])
  · exact exec_refused hs h hexec (by rw [holdLane_eq, if_pos ⟨h1, h8⟩, if_neg (by omega)])
  · exact exec_refused hs h hexec (by
      rw [holdLane_eq, if_pos ⟨h1, h8⟩, if_pos (by omega), if_neg (by simp [hno])])
  · intro busy
    subst hzero
    have hbusy : s.workInFlight l = true ↔ busy := State.workInFlight_iff
    have stopped {r : LaneHold} (hst : l.state ≠ .running) (hr : l.state.reason = some r) :=
      exec_holdLane_mapped hs h ⟨h1, h8⟩ hl (if_neg hst) hr
    cases hst : l.state with
    | running =>
      by_cases hwork : s.workInFlight l = true
      · obtain ⟨t, ht, hframe, hother, hlane⟩ := exec_holdLane_mapped hs h ⟨h1, h8⟩ hl (r := .host)
          (l' := { l with state := .holdPending .host, oneShot := false }) (by simp [Lane.hostHeld, hst, hwork]) rfl
        exact ⟨t, ht, hframe, hother, fun _ _ => hlane, fun _ hidle => absurd (hbusy.mp hwork) hidle, nofun, nofun⟩
      · obtain ⟨t, ht, hframe, hother, hlane⟩ := exec_holdLane_mapped hs h ⟨h1, h8⟩ hl (r := .host)
          (l' := { l with state := .held .host, oneShot := false }) (by simp [Lane.hostHeld, hst, hwork]) rfl
        exact ⟨t, ht, hframe, hother, fun _ hb => absurd (hbusy.mpr hb) hwork, fun _ _ => hlane, nofun, nofun⟩
    | holdPending r =>
      obtain ⟨t, ht, hframe, hother, hlane⟩ := stopped (r := r) (by simp [hst]) (by rw [hst]; rfl)
      rw [hst] at hlane
      refine ⟨t, ht, hframe, hother, nofun, nofun, fun r' hr' => ?_, nofun⟩
      cases hr'
      exact hlane
    | held r =>
      obtain ⟨t, ht, hframe, hother, hlane⟩ := stopped (r := r) (by simp [hst]) (by rw [hst]; rfl)
      rw [hst] at hlane
      refine ⟨t, ht, hframe, hother, nofun, nofun, nofun, fun r' hr' => ?_⟩
      cases hr'
      exact hlane

/-! ## RELEASE_LANE (R84) -/

/-- The stencil station of a lane's lot is ACTIVE. -/
def State.stencilActive (s : State) : LaneTarget → Bool
  | .lot _ a => s.isActive a
  | .hold => true

/-- Checks 3 to 6 of R84 on a mapped lane. -/
def State.mayRelease (s : State) (l : Lane) : Bool :=
  l.state.isHeld && (s.isActive l.scale && ((s.verification l.scale).state.fit && s.stencilActive l.target))

theorem State.stencilActive_iff {s : State} {target : LaneTarget} :
    s.stencilActive target = true ↔ ∀ k a, target = .lot k a → (s.station a).join = .active := by
  cases target with
  | lot k a =>
    refine State.isActive_iff.trans ⟨fun hact k' a' he => ?_, fun hall => hall k a rfl⟩
    cases he
    exact hact
  | hold => exact iff_of_true rfl nofun

theorem State.mayRelease_iff {s : State} {l : Lane} : s.mayRelease l = true ↔
    (∃ r, l.state = .held r) ∧ (s.station l.scale).join = .active ∧
      ((∃ t, (s.verification l.scale).state = .at (.verified t)) ∨
        ∃ g, (s.verification l.scale).state = .at (.due g)) ∧
      ∀ k a, l.target = .lot k a → (s.station a).join = .active := by
  simp only [State.mayRelease, Bool.and_eq_true, LaneState.isHeld_iff, State.isActive_iff, VerifyState.fit_iff,
    State.stencilActive_iff]

/-- A lane released by the command's options (R84). -/
def Lane.released (l : Lane) (p : ReleaseParams) : Lane :=
  { l with state := .running, oneShot := p.one == 1, watch := if p.watch = 2 then l.watch else p.watch == 1 }

theorem releaseLane_noSuch {p : ReleaseParams} {s : State} (hn : ¬ (1 ≤ p.lane ∧ p.lane ≤ 8)) :
    releaseLane p s = refuse s .noSuch := by
  simp only [releaseLane, checked_cons, isLane_iff, if_neg hn]

theorem releaseLane_badValue {p : ReleaseParams} {s : State} (hn : 1 ≤ p.lane ∧ p.lane ≤ 8)
    (hbad : ¬ (p.one ≤ 1 ∧ p.watch ≤ 2)) : releaseLane p s = refuse s .badValue := by
  simp only [releaseLane, checked_cons, if_pos hn, Bool.and_eq_true, decide_eq_true_eq, if_neg hbad]

/-- RELEASE_LANE past its first two checks. -/
theorem releaseLane_inRange {p : ReleaseParams} {s : State} (hn : 1 ≤ p.lane ∧ p.lane ≤ 8)
    (hgood : p.one ≤ 1 ∧ p.watch ≤ 2) :
    (s.lane? p.lane = none → releaseLane p s = refuse s .badState) ∧
    ∀ l, s.lane? p.lane = some l → releaseLane p s =
      if s.mayRelease l = true then okay (s.setLane p.lane (some (l.released p))) [] else refuse s .badState := by
  refine ⟨fun hno => ?_, fun l hl => ?_⟩
  · have hheld : ¬ s.laneIs p.lane (fun l => l.state.isHeld) = true := by simp [State.laneIs, hno]
    simp only [releaseLane, checked_cons, if_pos hn, Bool.and_eq_true, decide_eq_true_eq, if_pos hgood,
      if_neg hheld]
  · simp only [releaseLane, checked_cons, checked_nil, if_pos hn, Bool.and_eq_true, decide_eq_true_eq, if_pos hgood,
      State.laneIs_eq hl, State.laneD_eq hl, State.mayRelease, ite_and]
    rcases l with ⟨_, _ | _, _, _, _, _, _, _, _⟩ <;> rfl

/-- Settles O36: the checks of R84 in order, and the released lane. -/
theorem laneIsReleased : Obligations.LaneIsReleased := by
  intro s p hs h
  refine ⟨fun hn => exec_refused hs h rfl (releaseLane_noSuch hn),
    fun h1 h8 hbad => exec_refused hs h rfl (releaseLane_badValue ⟨h1, h8⟩ hbad),
    fun h1 h8 hone hwatch hno => exec_refused hs h rfl ((releaseLane_inRange ⟨h1, h8⟩ ⟨hone, hwatch⟩).1 hno),
    fun l h1 h8 hone hwatch hl => ?_⟩
  intro ready
  have hrelease := (releaseLane_inRange ⟨h1, h8⟩ ⟨hone, hwatch⟩).2 l hl
  refine ⟨fun hno => exec_refused hs h rfl (hrelease.trans (if_neg (mt State.mayRelease_iff.mp hno))), fun hready => ?_⟩
  have htaken := hrelease.trans (if_pos (State.mayRelease_iff.mpr hready))
  refine ⟨_, exec_okay hs h rfl htaken, rfl, fun m hm => ?_, ?_⟩
  · rw [State.setBuffer_laneOf, State.setLane_lane?, if_neg hm]
  · rw [State.setBuffer_laneOf, State.setLane_self, Lane.released]

end Sys2Proof.Machine
end

section
/-! PROOFS. The jobs that a forced hold cancels (R82, R115): the FIRST jobs of a lane's chests leave their queues, queue
by queue, and the notices of the queues that run empty or low. -/

namespace Sys2Proof.Machine

/-! ## The chests whose jobs are cancelled -/

theorem State.forceCancels_iff {s : State} {n : Nat} {j : Job} : s.forceCancels n j = true ↔
    j.kind = .first ∧ ∃ c, s.chest? j.chest = some c ∧ c.mark = .queued ∧ c.lane = n := by
  simp only [State.forceCancels, Bool.and_eq_true, beq_iff_eq, State.chestIs_iff]

/-- The jobs are judged by their kind and their chests' records. -/
theorem State.forceCancels_congr {s t : State} {n : Nat} {j : Job} (h : t.chest? j.chest = s.chest? j.chest) :
    t.forceCancels n j = s.forceCancels n j := by
  simp only [State.forceCancels, State.chestIs, h]

/-- The jobs that a forced hold of lane `n` cancels in the queues of some heads, head by head. -/
def State.cutJobs (s : State) (n : Nat) (as : List Nat) : List Job :=
  as.flatMap (fun a => (s.head a).queue.filter (s.forceCancels n))

theorem State.mem_cutJobs {s : State} {n : Nat} {as : List Nat} {j : Job} :
    j ∈ s.cutJobs n as ↔ (∃ a ∈ as, j ∈ (s.head a).queue) ∧ s.forceCancels n j = true := by
  simp only [State.cutJobs, List.mem_flatMap, List.mem_filter]
  exact ⟨fun ⟨a, ha, hj, hc⟩ => ⟨⟨a, ha, hj⟩, hc⟩, fun ⟨⟨a, ha, hj⟩, hc⟩ => ⟨a, ha, hj, hc⟩⟩

theorem State.length_cutJobs (s : State) (n : Nat) (as : List Nat) :
    (s.cutJobs n as).length = (as.map (fun a => s.countJobs a (s.forceCancels n))).sum := List.length_flatMap

/-- Queues that lose jobs leave every chest with one job at most. -/
theorem State.soleJobs_of_sublist {s t : State} (h : ∀ a, (t.head a).queue.Sublist (s.head a).queue)
    (hs : s.soleJobs) : t.soleJobs :=
  ⟨fun a => (hs.1 a).sublist ((h a).map _),
    fun a b hab j hj i hi => hs.2 a b hab j ((h a).subset hj) i ((h b).subset hi)⟩

theorem Chest.uncued_uncued (c : Chest) : c.uncued.uncued = c.uncued := by
  unfold Chest.uncued
  split <;> simp_all

theorem Notice.raisedFor_append (n : Notice) (l m : List Nat) : n.raisedFor (l ++ m) = (n.raisedFor l).raisedFor m :=
  List.foldl_append

/-! ## One queue -/

/-- A head whose queue loses the jobs that `out` picks (R82). -/
def Head.without (h : Head) (out : Job → Bool) : Head :=
  { h with
    queue := h.queue.filter (fun j => !out j)
    state := if h.state = .ready ∧ h.queue.filter (fun j => !out j) = [] then .idle else h.state }

/-- The loss of the jobs that `out` picks raises the queue notice `k` (R115). -/
def Head.falls (h : Head) (out : Job → Bool) (k : NoticeKind) : Bool :=
  decide ((k = .queueEmpty ∧ 1 ≤ h.queue.length ∧ (h.without out).queue.length = 0) ∨
    (k = .queueLow ∧ 4 ≤ h.queue.length ∧ (h.without out).queue.length ≤ 3))

/-- From `s` to `t` the jobs of lane `n`'s chests have left the queues of the heads `as`. -/
structure State.CutsJobs (s t : State) (n : Nat) (as : List Nat) : Prop where
  frame : t = { s with heads := t.heads, chests := t.chests, lots := t.lots, notices := t.notices }
  head : ∀ b, t.head b = if b ∈ as then (s.head b).without (s.forceCancels n) else s.head b
  chest : ∀ id, t.chest? id =
    if id ∈ (s.cutJobs n as).map Job.chest then (s.chest? id).map Chest.uncued else s.chest? id
  lot : ∀ k, t.lot? k = (s.lot? k).map (fun l => { l with
    outstanding := l.outstanding - ((s.cutJobs n as).filter (fun j => s.chestIs j.chest (fun c => c.inLot k))).length })
  notice : ∀ k, t.notice k = (s.notice k).raisedFor (as.filter (fun a => (s.head a).falls (s.forceCancels n) k))

namespace State.CutsJobs

theorem nil (s : State) (n : Nat) : s.CutsJobs s n [] where
  frame := rfl
  head := by simp
  chest := by simp [State.cutJobs]
  lot k := by cases h : s.lot? k <;> simp [State.cutJobs]
  notice _ := rfl

theorem one {s : State} (hs : s.soleJobs) (n a : Nat) : s.CutsJobs (s.cancelJobs a (s.forceCancels n)) n [a] := by
  have hjobs : s.cutJobs n [a] = (s.head a).queue.filter (s.forceCancels n) := by simp [State.cutJobs]
  have hnodup := (hs.1 a).sublist ((List.filter_sublist (p := s.forceCancels n)).map Job.chest)
  obtain ⟨hframe, hhead, hchest, hlot, hnotice⟩ := State.cancelJobs_spec s a (s.forceCancels n) hnodup fun j hj => by
    obtain ⟨-, c, hc, hm, -⟩ := State.forceCancels_iff.mp (List.mem_filter.mp hj).2
    exact ⟨c, hc, by simp [hm]⟩
  refine ⟨hframe, fun b => ?_, fun id => ?_, fun k => ?_, fun k => ?_⟩
  · rw [hhead]
    by_cases hb : b = a
    · subst hb; simp [Head.without]
    · simp [hb]
  · rw [hchest, hjobs]
  · rw [hlot, hjobs]
  · rw [hnotice, List.filter_cons, List.filter_nil]
    by_cases hfalls : (s.head a).falls (s.forceCancels n) k = true
    · rw [if_pos hfalls]
      exact if_pos (of_decide_eq_true hfalls)
    · rw [if_neg hfalls]
      exact if_neg (mt decide_eq_true hfalls)

/-- The queues of some heads, one after the other. -/
theorem cons {s u t : State} {n a : Nat} {as : List Nat} (hs : s.soleJobs) (first : s.CutsJobs u n [a])
    (rest : u.CutsJobs t n as) (new : a ∉ as) : s.CutsJobs t n (a :: as) := by
  have hother (b : Nat) (hb : b ∈ as) : u.head b = s.head b := by
    rw [first.head, if_neg (by simpa using ne_of_mem_of_not_mem hb new)]
  have hchest (b : Nat) (hb : b ∈ as) (j : Job) (hj : j ∈ (s.head b).queue) : u.chest? j.chest = s.chest? j.chest := by
    rw [first.chest, if_neg]
    intro hm
    obtain ⟨i, hi, he⟩ := List.mem_map.mp hm
    obtain ⟨⟨a', ha, hq⟩, -⟩ := State.mem_cutJobs.mp hi
    obtain rfl := List.mem_singleton.mp ha
    exact hs.2 b a' (ne_of_mem_of_not_mem hb new) j hj i hq he
  have hcancels (b : Nat) (hb : b ∈ as) (j : Job) (hj : j ∈ (s.head b).queue) :
      u.forceCancels n j = s.forceCancels n j :=
    State.forceCancels_congr (hchest b hb j hj)
  have hwithout (b : Nat) (hb : b ∈ as) :
      (s.head b).without (u.forceCancels n) = (s.head b).without (s.forceCancels n) := by
    have hkept : (s.head b).queue.filter (fun j => !u.forceCancels n j) =
        (s.head b).queue.filter (fun j => !s.forceCancels n j) :=
      List.filter_congr fun j hj => by rw [hcancels b hb j hj]
    rw [Head.without, hkept, Head.without]
  have hfalls (b : Nat) (hb : b ∈ as) (k : NoticeKind) :
      (u.head b).falls (u.forceCancels n) k = (s.head b).falls (s.forceCancels n) k := by
    rw [hother b hb, Head.falls, hwithout b hb, Head.falls]
  have hlater : u.cutJobs n as = s.cutJobs n as :=
    List.flatMap_congr fun b hb => by
      rw [hother b hb]
      exact List.filter_congr (hcancels b hb)
  have hjobs : s.cutJobs n (a :: as) = s.cutJobs n [a] ++ s.cutJobs n as := by simp [State.cutJobs]
  refine ⟨?_, fun b => ?_, fun id => ?_, fun k => ?_, fun k => ?_⟩
  · rw [rest.frame, first.frame]
  · rw [rest.head, first.head]
    by_cases hb : b ∈ as
    · rw [if_pos hb, if_neg (by simpa using ne_of_mem_of_not_mem hb new), if_pos (List.mem_cons_of_mem _ hb),
        hwithout b hb]
    · simp only [List.mem_cons, hb, or_false, List.not_mem_nil, if_false]
  · rw [rest.chest, first.chest, hlater, hjobs, List.map_append]
    by_cases h1 : id ∈ (s.cutJobs n [a]).map Job.chest <;> by_cases h2 : id ∈ (s.cutJobs n as).map Job.chest <;>
      simp [h1, h2, Option.map_map, Function.comp_def, Chest.uncued_uncued]
  · have hsame : (s.cutJobs n as).filter (fun j => u.chestIs j.chest (fun c => c.inLot k)) =
        (s.cutJobs n as).filter (fun j => s.chestIs j.chest (fun c => c.inLot k)) :=
      List.filter_congr fun j hj => by
        obtain ⟨⟨b, hb, hj⟩, -⟩ := State.mem_cutJobs.mp hj
        rw [State.chestIs, State.chestIs, hchest b hb j hj]
    rw [rest.lot, first.lot, hlater, hsame, hjobs, List.filter_append, List.length_append, Option.map_map]
    exact congrArg (Option.map · _) (funext fun l => by simp only [Function.comp, Nat.sub_sub])
  · have hsame : as.filter (fun b => (u.head b).falls (u.forceCancels n) k) =
        as.filter (fun b => (s.head b).falls (s.forceCancels n) k) := List.filter_congr fun b hb => hfalls b hb k
    have hsplit : a :: as = [a] ++ as := rfl
    rw [rest.notice, first.notice, hsame, hsplit, List.filter_append, Notice.raisedFor_append]

/-- The queues of the heads `as`, in their order. -/
theorem all (n : Nat) {as : List Nat} (has : as.Nodup) {s : State} (hs : s.soleJobs) :
    s.CutsJobs (as.foldl (fun t a => t.cancelJobs a (t.forceCancels n)) s) n as := by
  induction as generalizing s with
  | nil => exact nil s n
  | cons a as ih =>
    obtain ⟨new, has⟩ := List.nodup_cons.mp has
    have first := one hs n a
    have hsub (b : Nat) : ((s.cancelJobs a (s.forceCancels n)).head b).queue.Sublist (s.head b).queue := by
      rw [first.head]
      split
      · exact List.filter_sublist
      · exact List.Sublist.refl _
    exact first.cons hs (ih has (State.soleJobs_of_sublist hsub hs)) new

end State.CutsJobs

/-! ## The last source of a queue notice (R167, assumption 16) -/

theorem lastTaken_mem {l : List Nat} (h : l ≠ []) : ∃ x ∈ l, lastTaken l = some x := by
  have hlt : Config.takenLast l % l.length < l.length := Nat.mod_lt _ (List.length_pos_iff.mpr h)
  exact ⟨l[Config.takenLast l % l.length], List.getElem_mem hlt, List.getElem?_eq_getElem hlt⟩

/-- A kind raised for one record after another: the last is its source, and from the second on it is repeated. -/
theorem Notice.raisedFor_append_one (n : Notice) (l : List Nat) (x : Nat) : n.raisedFor (l ++ [x]) = { n with
    pending := true
    repeated := n.repeated || n.pending || decide (1 < (l ++ [x]).length)
    source := some x } := by
  induction l using List.reverseRecOn generalizing x with
  | nil => simp [Notice.raisedFor, Notice.raised]
  | append_singleton l y ih =>
    rw [Notice.raisedFor_append, ih y]
    simp [Notice.raisedFor, Notice.raised]

/-- A kind raised for some records, its last source chosen among them. -/
theorem State.raisesAmong_lastSource {s t : State} {k : NoticeKind} {l : List Nat}
    (h : t.notice k = (s.notice k).raisedFor l) : s.raisesAmong (t.lastSource k l) k l := by
  refine ⟨fun hl => ?_, fun hl => ?_⟩
  · subst hl
    exact h
  · obtain ⟨l', x, rfl⟩ := (List.eq_nil_or_concat' l).resolve_left hl
    rw [Notice.raisedFor_append_one] at h
    unfold State.lastSource
    split
    · exact ⟨x, by simp, h⟩
    · obtain ⟨y, hy, htaken⟩ := lastTaken_mem hl
      exact ⟨y, hy, by rw [State.setNotice_self, h, htaken]⟩

end Sys2Proof.Machine
end

section
/-! PROOFS. HOLD_LANE with force (O35): the lane's tentative chest and waiting call are settled, its chests' queued
FIRST jobs are cancelled, and the lane is held. -/

namespace Sys2Proof.Machine

/-! ## The tentative chest (R34) -/

section Tentative

variable {s : State} {id k : Nat} {c : Chest} (hc : s.chest? id = some c) (hk : c.place = .tentative k)
  (n : Nat) (r : HoldReason)
include hc hk

theorem State.settleTentative_pool : (s.settleTentative n id r).pool =
    if s.poolRoom then s.pool ++ [id] else s.pool.filter (fun j => j != id) := by
  unfold State.settleTentative
  simp only [State.chestD_eq hc, hk]
  cases s.poolRoom <;> rfl

theorem State.settleTentative_chest? (j : Nat) : (s.settleTentative n id r).chest? j =
    if j = id then if s.poolRoom then some { c with place := .held r (some k) } else none else s.chest? j := by
  unfold State.settleTentative
  simp only [State.chestD_eq hc, hk]
  rw [State.modLane_chestOf, State.modLot_chestOf]
  cases s.poolRoom
  · exact State.freeChest_chest? s id j
  · exact State.holdChest_chest? s id j c r (some k)

theorem State.settleTentative_lot? (j : Nat) : (s.settleTentative n id r).lot? j =
    if j = k then (s.lot? k).map Lot.lessTentative else s.lot? j := by
  unfold State.settleTentative
  simp only [State.chestD_eq hc, hk]
  rw [State.modLane_lotOf, State.modLot_lot?]
  cases s.poolRoom <;> rfl

end Tentative

/-- How many tentative chests of lot `k` the lane holds: one or none. -/
def State.tentativeIn (s : State) (l : Lane) (k : Nat) : Nat :=
  (l.tentative.filter (fun id => s.chestIs id (fun c => c.place == .tentative k))).toList.length

/-- From `s` to `t` the tentative chest of lane `n`, `l`, if it holds one, is held with reason FORCED or freed (R34). -/
structure State.SettlesTentative (s t : State) (n : Nat) (l : Lane) : Prop where
  frame : t = { s with lanes := t.lanes, lots := t.lots, chests := t.chests, pool := t.pool }
  lane : ∀ m, t.lane? m = if m = n then some { l with tentative := none } else s.lane? m
  lot : ∀ k, t.lot? k = (s.lot? k).map (fun u => { u with tentative := u.tentative - s.tentativeIn l k })
  other : ∀ id, some id ≠ l.tentative → t.chest? id = s.chest? id
  unheld : l.tentative = none → t.pool = s.pool
  pool : ∀ id c k, l.tentative = some id → s.chest? id = some c → c.place = .tentative k →
    t.pool = if s.poolRoom then s.pool ++ [id] else s.pool.filter (fun j => j != id)
  chest : ∀ id c k, l.tentative = some id → s.chest? id = some c → c.place = .tentative k →
    t.chest? id = if s.poolRoom then some { c with place := .held .forced (some k) } else none

/-- A lane with no tentative chest has none to settle. -/
theorem State.SettlesTentative.of_none {s : State} {n : Nat} {l : Lane} (hl : s.lane? n = some l)
    (ht : l.tentative = none) : s.SettlesTentative s n l where
  frame := rfl
  lane m := by
    split
    · next hm => rw [hm, hl, ← ht]
    · rfl
  lot k := by cases h : s.lot? k <;> simp [State.tentativeIn, ht]
  other _ _ := rfl
  unheld _ := rfl
  pool id c k h := by rw [ht] at h; cases h
  chest id c k h := by rw [ht] at h; cases h

/-- The tentative chest of a lot is settled. -/
theorem State.SettlesTentative.of_some {s : State} {n id k : Nat} {l : Lane} {c : Chest} (hl : s.lane? n = some l)
    (ht : l.tentative = some id) (hc : s.chest? id = some c) (hk : c.place = .tentative k) :
    s.SettlesTentative (s.settleTentative n id .forced) n l where
  frame := s.settleTentative_eq n id .forced
  lane m := by rw [State.settleTentative_lane?, hl]; rfl
  lot j := by
    have hin : s.tentativeIn l j = if j = k then 1 else 0 := by
      rw [State.tentativeIn, ht, Option.filter_some, State.chestIs_eq hc, hk]
      by_cases hj : j = k
      · subst hj; simp
      · simp [hj, Ne.symm hj]
    rw [State.settleTentative_lot? hc hk, hin]
    by_cases hj : j = k
    · subst hj; simp only [if_true]; rfl
    · cases s.lot? j <;> simp [hj]
  other j hj := by
    rw [State.settleTentative_chest? hc hk, if_neg fun he => hj (by rw [he, ht])]
  unheld h := by rw [ht] at h; cases h
  pool id' c' k' h hc' hk' := by
    obtain rfl := Option.some.inj (ht.symm.trans h)
    exact State.settleTentative_pool hc hk n .forced
  chest id' c' k' h hc' hk' := by
    obtain rfl := Option.some.inj (ht.symm.trans h)
    obtain rfl := Option.some.inj (hc.symm.trans hc')
    exact (State.settleTentative_chest? hc hk' n .forced id).trans (if_pos rfl)

/-! ## The waiting call (R82, R109) -/

/-- What a forced hold does to the tentative chest and then to the waiting call of its lane. -/
theorem State.forceSettle_spec {s : State} {n : Nat} {l : Lane} (hl : s.lane? n = some l)
    (hchest : ∀ id, l.tentative = some id → ∃ c k, s.chest? id = some c ∧ c.place = .tentative k) :
    ∃ u, s.SettlesTentative u n l ∧
      s.forceSettle n = if s.wait l.scale = .none then u else u.answerCall l.scale .laneHeld 0 := by
  unfold State.forceSettle
  rw [State.laneD_eq hl]
  dsimp only
  cases ht : l.tentative with
  | none => exact ⟨s, .of_none hl ht, rfl⟩
  | some id =>
    obtain ⟨c, k, hc, hk⟩ := hchest id ht
    have hsettles := State.SettlesTentative.of_some hl ht hc hk
    have hwait : (s.settleTentative n id .forced).wait l.scale = s.wait l.scale := by
      rw [hsettles.frame]
      rfl
    exact ⟨_, hsettles, by rw [hwait]⟩

/-- The call of the lane's scale, if it waits, is answered LANE_HELD. -/
theorem State.answerWaiting_spec {s u : State} {a : Nat} (hstation : ∀ b, u.station b = s.station b)
    (hwait : ∀ b, u.wait b = s.wait b) :
    let t := if s.wait a = .none then u else u.answerCall a .laneHeld 0
    t = { u with stations := t.stations, waits := t.waits } ∧
      (s.wait a = .none → ∀ b, t.station b = s.station b ∧ t.wait b = s.wait b) ∧
      (s.wait a ≠ .none → (s.station a).join = .active → s.answersCall t a (.answer .laneHeld 0)) := by
  dsimp only
  by_cases h : s.wait a = .none
  · rw [if_pos h]
    exact ⟨rfl, fun _ b => ⟨hstation b, hwait b⟩, absurd h⟩
  · rw [if_neg h]
    refine ⟨u.answerCall_eq a .laneHeld 0, fun hn => absurd hn h, fun _ hj => ?_⟩
    have hears : (u.station a).join.hears = true := Join.hears_active (by rw [hstation, hj])
    have hplaced := u.answersCall_answerCall a .laneHeld 0 hears
    exact State.answersCall_congr hplaced hstation hwait (fun _ => rfl) fun _ => rfl

/-! ## The queue notices (R115) -/

theorem Head.falls_queueEmpty (h : Head) (out : Job → Bool) :
    h.falls out .queueEmpty = decide (h.queue ≠ [] ∧ (h.without out).queue = []) := by
  simp [Head.falls, Nat.one_le_iff_ne_zero]

theorem Head.falls_queueLow (h : Head) (out : Job → Bool) :
    h.falls out .queueLow = decide (4 ≤ h.queue.length ∧ (h.without out).queue.length ≤ 3) := by
  simp [Head.falls]

theorem Head.falls_other (h : Head) (out : Job → Bool) {k : NoticeKind} (he : k ≠ .queueEmpty) (hl : k ≠ .queueLow) :
    h.falls out k = false := by
  simp [Head.falls, he, hl]

/-- The heads whose queues the forced hold of lane `n` brings to a falling edge of the kind `k`. -/
def State.fallen (s : State) (n : Nat) (k : NoticeKind) : List Nat :=
  addresses.filter (fun a => (s.head a).falls (s.forceCancels n) k)

theorem State.raisesAmong_congr {s t u : State} {k : NoticeKind} {l : List Nat} (h : s.raisesAmong t k l)
    (hu : u.notice k = t.notice k) : s.raisesAmong u k l := by
  unfold State.raisesAmong at h ⊢
  rwa [hu]

/-- What the cancellation of a lane's jobs in every queue leaves, with the queue notices that it raises. -/
theorem State.forceCancel_spec {s : State} (hs : s.soleJobs) (n : Nat) :
    let t := s.forceCancel n
    ∃ u, s.CutsJobs u n addresses ∧ t = { u with notices := t.notices } ∧
      (∀ k, k ≠ .queueEmpty → k ≠ .queueLow → t.notice k = s.notice k) ∧
      s.raisesAmong t .queueEmpty (s.fallen n .queueEmpty) ∧ s.raisesAmong t .queueLow (s.fallen n .queueLow) := by
  have cuts := State.CutsJobs.all n addresses_nodup hs
  unfold State.forceCancel
  dsimp only
  generalize addresses.foldl (fun (t : State) a => t.cancelJobs a (t.forceCancels n)) s = u at *
  have hhead (a : Nat) (ha : a ∈ addresses) : u.head a = (s.head a).without (s.forceCancels n) := by
    rw [cuts.head, if_pos ha]
  have hempty : addresses.filter
      (fun a => decide (0 < (s.head a).queue.length) && decide ((u.head a).queue.length ≤ 0)) =
      s.fallen n .queueEmpty := List.filter_congr fun a ha => by
    rw [hhead a ha, Head.falls_queueEmpty]
    simp [List.length_pos_iff]
  have hlow : addresses.filter
      (fun a => decide (3 < (s.head a).queue.length) && decide ((u.head a).queue.length ≤ 3)) =
      s.fallen n .queueLow := List.filter_congr fun a ha => by
    rw [hhead a ha, Head.falls_queueLow]
    simp [Nat.lt_iff_add_one_le]
  rw [hempty, hlow]
  obtain ⟨hframe, hother, -⟩ := u.lastSource_spec .queueEmpty (s.fallen n .queueEmpty)
  obtain ⟨hframe', hother', -⟩ :=
    (u.lastSource .queueEmpty (s.fallen n .queueEmpty)).lastSource_spec .queueLow (s.fallen n .queueLow)
  refine ⟨u, cuts, ?_, fun k he hl => ?_, ?_, ?_⟩
  · rw [hframe', hframe]
  · have hnone : s.fallen n k = [] := List.filter_eq_nil_iff.mpr fun a _ => by
      rw [Head.falls_other _ _ he hl]
      exact Bool.false_ne_true
    exact (hother' k hl).trans ((hother k he).trans ((cuts.notice k).trans (congrArg _ hnone)))
  · have hraised := State.raisesAmong_lastSource (cuts.notice .queueEmpty)
    exact State.raisesAmong_congr hraised (hother' .queueEmpty (by decide))
  · exact State.raisesAmong_lastSource ((hother .queueLow (by decide)).trans (cuts.notice .queueLow))

/-! ## The forced hold (R82) -/

/-- A tentative chest of a lot, with no mark, has no job to cancel. -/
theorem State.forceCancels_tentative {s : State} {n id : Nat} {c : Chest} {j : Job} (hc : s.chest? id = some c)
    (hm : c.mark = .none) (hj : s.forceCancels n j = true) : j.chest ≠ id := by
  obtain ⟨-, d, hd, hqueued, -⟩ := State.forceCancels_iff.mp hj
  rintro rfl
  obtain rfl := Option.some.inj (hc.symm.trans hd)
  rw [hm] at hqueued
  cases hqueued

/-- The tentative chest of the lane, if it holds one, is of a lot and has no mark. -/
def State.tentativeUnmarked (s : State) (l : Lane) : Prop :=
  ∀ id, l.tentative = some id → ∃ c k, s.chest? id = some c ∧ c.place = .tentative k ∧ c.mark = .none

/-- Settling a lane's tentative chest, which has no mark, leaves the jobs that the forced hold cancels as they are. -/
theorem State.SettlesTentative.forceCancels {s u : State} {n : Nat} {l : Lane} (hu : s.SettlesTentative u n l)
    (hchest : s.tentativeUnmarked l) :
    u.forceCancels n = s.forceCancels n := by
  funext j
  by_cases hj : some j.chest = l.tentative
  · obtain ⟨c, k, hc, hk, hm⟩ := hchest j.chest hj.symm
    have before : ¬ s.forceCancels n j = true := fun h => State.forceCancels_tentative hc hm h rfl
    have after : ¬ u.forceCancels n j = true := fun h => by
      obtain ⟨-, d, hd, hqueued, -⟩ := State.forceCancels_iff.mp h
      rw [hu.chest _ c k hj.symm hc hk] at hd
      split at hd
      · obtain rfl := Option.some.inj hd
        rw [hm] at hqueued
        cases hqueued
      · cases hd
    rw [Bool.eq_false_iff.mpr before, Bool.eq_false_iff.mpr after]
  · exact State.forceCancels_congr (hu.other j.chest hj)

/-- A lane after a forced hold (R82). -/
def Lane.forced (l : Lane) : Lane := { l with state := .held l.state.forcedReason, oneShot := false, tentative := none }

/-- What a forced hold leaves: `u` is the state with the tentative chest settled. -/
structure State.ForceHolds (s u t : State) (n : Nat) (l : Lane) : Prop where
  settles : s.SettlesTentative u n l
  frame : t = { u with
    lanes := t.lanes, lots := t.lots, chests := t.chests, heads := t.heads, stations := t.stations, waits := t.waits
    notices := t.notices }
  lane : ∀ m, t.lane? m = if m = n then some l.forced else s.lane? m
  head : ∀ b, t.head b = if b ∈ addresses then (s.head b).without (s.forceCancels n) else s.head b
  chest : ∀ id, t.chest? id =
    if id ∈ (s.cutJobs n addresses).map Job.chest then (u.chest? id).map Chest.uncued else u.chest? id
  lot : ∀ k, t.lot? k = (s.lot? k).map (fun v => { v with
    tentative := v.tentative - s.tentativeIn l k
    outstanding := v.outstanding -
      ((s.cutJobs n addresses).filter (fun j => s.chestIs j.chest (fun c => c.inLot k))).length })
  silent : s.wait l.scale = .none → ∀ a, t.station a = s.station a ∧ t.wait a = s.wait a
  answered : s.wait l.scale ≠ .none → (s.station l.scale).join = .active →
    s.answersCall t l.scale (.answer .laneHeld 0)
  quiet : ∀ k, k ≠ .queueEmpty → k ≠ .queueLow → t.notice k = s.notice k
  emptied : s.raisesAmong t .queueEmpty (s.fallen n .queueEmpty)
  lowered : s.raisesAmong t .queueLow (s.fallen n .queueLow)

/-- The forced hold of a mapped lane: its chest, its call, its chests' jobs and the lane itself, in this order. -/
theorem State.forceHold_spec {s : State} {n : Nat} {l : Lane} (hl : s.lane? n = some l) (hs : s.soleJobs)
    (hchest : s.tentativeUnmarked l) : ∃ u, s.ForceHolds u (s.forceHold n) n l := by
  obtain ⟨u, hu, hsettle⟩ := State.forceSettle_spec hl fun id hid => by
    obtain ⟨c, k, hc, hk, -⟩ := hchest id hid
    exact ⟨c, k, hc, hk⟩
  have hcancels := hu.forceCancels hchest
  obtain ⟨hcall, hsilent, hanswered⟩ := State.answerWaiting_spec (s := s) (u := u) (a := l.scale)
    (fun b => by rw [hu.frame]; rfl) fun b => by rw [hu.frame]; rfl
  rw [← hsettle] at hcall hsilent hanswered
  unfold State.forceHold
  dsimp only
  generalize s.forceSettle n = v at *
  have vhead (b : Nat) : v.head b = s.head b := by rw [hcall, hu.frame]; rfl
  have vchest (id : Nat) : v.chest? id = u.chest? id := by rw [hcall]; rfl
  have vnotice (k : NoticeKind) : v.notice k = s.notice k := by rw [hcall, hu.frame]; rfl
  have vcancels : v.forceCancels n = s.forceCancels n :=
    (funext fun j => State.forceCancels_congr (vchest j.chest)).trans hcancels
  have vjobs (as : List Nat) : v.cutJobs n as = s.cutJobs n as := by
    simp only [State.cutJobs, vhead, vcancels]
  have vfallen (k : NoticeKind) : v.fallen n k = s.fallen n k := by
    simp only [State.fallen, vhead, vcancels]
  have vsole : v.soleJobs := State.soleJobs_of_sublist (fun a => by rw [vhead a]) hs
  obtain ⟨w, cuts, hframe, hquiet, hempty, hlow⟩ := State.forceCancel_spec vsole n
  generalize v.forceCancel n = t at *
  have vraises {k : NoticeKind} {as : List Nat} (h : v.raisesAmong t k as) : s.raisesAmong t k as := by
    unfold State.raisesAmong at h ⊢
    rwa [vnotice] at h
  have hstation (a : Nat) : t.station a = v.station a := by rw [hframe, cuts.frame]; rfl
  have hwait (a : Nat) : t.wait a = v.wait a := by rw [hframe, cuts.frame]; rfl
  refine ⟨u, hu, ?_, fun m => ?_, fun b => ?_, fun id => ?_, fun k => ?_, ?_, ?_, fun k he hk => ?_, ?_, ?_⟩
  · rw [State.modLane, hframe, cuts.frame, hcall]
  · have hlane (m : Nat) : t.lane? m = u.lane? m := by rw [hframe, cuts.frame, hcall]; rfl
    rw [State.modLane_lane?, hlane, hlane, hu.lane, hu.lane, if_pos rfl]
    split <;> rfl
  · have hhead : t.head b = w.head b := by rw [hframe]; rfl
    rw [State.modLane_head, hhead, cuts.head, vhead, vcancels]
  · have hch : t.chest? id = w.chest? id := by rw [hframe]; rfl
    rw [State.modLane_chestOf, hch, cuts.chest, vjobs, vchest]
  · have hlot : t.lot? k = w.lot? k := by rw [hframe]; rfl
    have hvlot : v.lot? k = u.lot? k := by rw [hcall]; rfl
    have hsame : (s.cutJobs n addresses).filter (fun j => v.chestIs j.chest (fun c => c.inLot k)) =
        (s.cutJobs n addresses).filter (fun j => s.chestIs j.chest (fun c => c.inLot k)) :=
      List.filter_congr fun j hj => by
        have hother : some j.chest ≠ l.tentative := fun he => by
          obtain ⟨c, k', hc, -, hm⟩ := hchest j.chest he.symm
          exact State.forceCancels_tentative hc hm (State.mem_cutJobs.mp hj).2 rfl
        rw [State.chestIs, State.chestIs, vchest, hu.other j.chest hother]
    rw [State.modLane_lotOf, hlot, cuts.lot, vjobs, hsame, hvlot, hu.lot, Option.map_map]
    rfl
  · exact fun hw a => ⟨(hstation a).trans (hsilent hw a).1, (hwait a).trans (hsilent hw a).2⟩
  · exact fun hw hj => State.answersCall_congr (hanswered hw hj) (fun _ => rfl) (fun _ => rfl) hstation hwait
  · exact (hquiet k he hk).trans (vnotice k)
  · exact vraises (vfallen .queueEmpty ▸ hempty)
  · exact vraises (vfallen .queueLow ▸ hlow)

/-! ## The command and its answer (R82) -/

theorem exec_holdLaneForce {s : State} {n : Nat} (h : s.latches 0x42 readPair (n, 1)) :
    exec .holdLaneForce s = .next (takeCommand 0x42 readPair false holdLaneForce s) := by
  have hrow : exec .holdLaneForce s =
      .next (if s.latchedForce then takeCommand 0x42 readPair false holdLaneForce s else s) := rfl
  rw [hrow, State.latchedForce_eq h]
  rfl

/-- The bytes of the answer: the chest's id, its fate and its position, the cancelled jobs, the lane's reason. -/
def forceData (id position : Option Nat) (cancelled : Nat) (r : LaneHold) : List Byte :=
  optional 2 id ++ u1 (if id.isNone then 0 else if position.isSome then 1 else 2) ++ optional 1 position ++
    u1 cancelled ++ [byte r.code]

theorem forceData_none (cancelled : Nat) (r : LaneHold) :
    forceData none none cancelled r = [0, 0, 0, 0, 0, 0, byte cancelled, byte r.code] := rfl

theorem forceData_held (id position cancelled : Nat) (r : LaneHold) :
    forceData (some id) (some position) cancelled r =
      [1, byte (id / 256), byte id, 1, 1, byte position, byte cancelled, byte r.code] := rfl

theorem forceData_freed (id cancelled : Nat) (r : LaneHold) :
    forceData (some id) none cancelled r = [1, byte (id / 256), byte id, 2, 0, 0, byte cancelled, byte r.code] := rfl

theorem holdLaneForce_noSuch {n f : Nat} {s : State} (hn : ¬ (1 ≤ n ∧ n ≤ 8)) :
    holdLaneForce (n, f) s = refuse s .noSuch := by
  simp only [holdLaneForce, checked_cons, if_neg (mt isLane_iff.mp hn)]

theorem holdLaneForce_badState {n f : Nat} {s : State} (hn : 1 ≤ n ∧ n ≤ 8) (hl : s.lane? n = none) :
    holdLaneForce (n, f) s = refuse s .badState := by
  simp only [holdLaneForce, checked_cons, if_pos (isLane_iff.mpr hn), hl]
  rfl

/-- HOLD_LANE with force of a mapped lane. -/
theorem holdLaneForce_mapped {n f : Nat} {s u : State} {l : Lane} (hn : 1 ≤ n ∧ n ≤ 8) (hl : s.lane? n = some l)
    (held : s.ForceHolds u (s.forceHold n) n l) :
    holdLaneForce (n, f) s = okay (s.forceHold n)
      (forceData l.tentative (l.tentative.bind (s.forceHold n).poolPosition) (s.cutJobs n addresses).length
        l.state.forcedReason) := by
  have hlane : (s.forceHold n).lane? n = some l.forced := (held.lane n).trans (if_pos rfl)
  have hreason : (s.forceHold n).reasonData n = [byte l.state.forcedReason.code] := by
    rw [State.reasonData, State.laneD_eq hlane]
    rfl
  simp only [holdLaneForce, checked_cons, checked_nil, if_pos (isLane_iff.mpr hn), hl, Option.isSome_some, if_true,
    State.laneD_eq hl, hreason, State.length_cutJobs, forceData]

theorem State.poolPosition_last {s t : State} {id : Nat} (h : id ∉ s.pool) (ht : t.pool = s.pool ++ [id]) :
    t.poolPosition id = some (s.pool.length + 1) := by
  rw [State.poolPosition, ht, if_pos (by simp), List.idxOf_append_of_notMem h]
  simp

theorem State.poolPosition_none {s t : State} {id : Nat} (h : id ∉ s.pool) (ht : t.pool = s.pool) :
    t.poolPosition id = none := by
  rw [State.poolPosition, ht, if_neg h]

/-- Settles O35: the checks of R82, and the forced hold part by part. -/
theorem laneIsForceHeld : Obligations.LaneIsForceHeld := by
  intro s n hs h
  have hexec := exec_holdLaneForce h
  refine ⟨fun hn => exec_refused hs h hexec (holdLaneForce_noSuch hn),
    fun h1 h8 hno => exec_refused hs h hexec (holdLaneForce_badState ⟨h1, h8⟩ hno),
    fun l h1 h8 hl hsole hchest => ?_⟩
  intro reason cut out left roomy
  obtain ⟨u, held⟩ := State.forceHold_spec hl hsole hchest
  have htaken := holdLaneForce_mapped (f := 1) ⟨h1, h8⟩ hl held
  have hreason : l.state.forcedReason = reason := by
    dsimp only [reason]
    cases l.state <;> rfl
  rw [hreason] at htaken
  have hpool : (s.forceHold n).pool = u.pool := by rw [held.frame]
  generalize s.forceHold n = t at *
  have kept (id : Nat) (hid : l.tentative = some id) : t.chest? id = u.chest? id := by
    rw [held.chest, if_neg]
    intro hm
    obtain ⟨j, hj, he⟩ := List.mem_map.mp hm
    obtain ⟨c, k, hc, -, hmark⟩ := hchest id hid
    exact State.forceCancels_tentative hc hmark (State.mem_cutJobs.mp hj).2 he
  refine ⟨_, exec_okay hs h hexec htaken, ?_, fun m hm => ?_, ?_, fun a => ?_, held.lot, fun id hid => ?_,
    held.quiet, ?_, ?_, held.silent, held.answered, fun hnone => ⟨?_, ?_⟩,
    fun id c k hid hc hk hout => ⟨fun hroom => ?_, fun hfull => ?_⟩⟩
  · rw [held.frame, held.settles.frame]
    rfl
  · exact (held.lane m).trans (if_neg hm)
  · refine (held.lane n).trans ((if_pos rfl).trans ?_)
    rw [Lane.forced, hreason]
  · exact (held.head a).trans (if_congr (mem_addresses a) rfl rfl)
  · refine (held.chest id).trans ?_
    rw [held.settles.other id hid]
    rfl
  · have hlist : s.fallen n .queueEmpty = addresses.filter (fun a => (s.head a).queue ≠ [] ∧ left a = []) :=
      List.filter_congr fun a _ => Head.falls_queueEmpty _ _
    rw [← hlist]
    exact held.emptied
  · have hlist : s.fallen n .queueLow = addresses.filter (fun a => 4 ≤ (s.head a).queue.length ∧ (left a).length ≤ 3) :=
      List.filter_congr fun a _ => Head.falls_queueLow _ _
    rw [← hlist]
    exact held.lowered
  · exact hpool.trans (held.settles.unheld hnone)
  · rw [hnone]
    exact congrArg (answer 0x42 0x00) (forceData_none _ _)
  · have hroom : s.poolRoom = true := State.poolRoom_iff.mpr hroom
    have hin := hpool.trans ((held.settles.pool id c k hid hc hk).trans (if_pos hroom))
    refine ⟨hin, ?_, ?_⟩
    · exact (kept id hid).trans ((held.settles.chest id c k hid hc hk).trans (if_pos hroom))
    · rw [hid, Option.bind_some, State.poolPosition_last hout hin, forceData_held]
      rfl
  · have hfull : ¬ s.poolRoom = true := mt State.poolRoom_iff.mp hfull
    have hstays : s.pool.filter (fun j => j != id) = s.pool :=
      List.filter_eq_self.mpr fun j hj => by simpa using ne_of_mem_of_not_mem hj hout
    have hsame := hpool.trans ((held.settles.pool id c k hid hc hk).trans ((if_neg hfull).trans hstays))
    refine ⟨hsame, ?_, ?_⟩
    · exact (kept id hid).trans ((held.settles.chest id c k hid hc hk).trans (if_neg hfull))
    · rw [hid, Option.bind_some, State.poolPosition_none hout hsame, forceData_freed]
      rfl

end Sys2Proof.Machine
end

section
/-! PROOFS. How a lane turns when its work in flight ends (R79, R80), the gates of a gross call and the answers that they
give (O46), and the gates of a tare call (O50). -/

namespace Sys2Proof.Machine

/-! ## Notices raised by one update (R167) -/

/-- The kinds of a property raised with one source. -/
theorem State.raisesAs_if {s t : State} {p : NoticeKind → Prop} [DecidablePred p] {x : Nat} :
    s.raisesAs t (fun j => if p j then some x else none) ↔
      ∀ j, t.notice j = if p j then (s.notice j).raised (some x) else s.notice j := by
  refine forall_congr' fun j => ?_
  by_cases hp : p j <;> simp [hp]

/-! ## A lane that turns -/

/-- From `s` to `t` lane `n`, `l`, becomes `l'`, LANE_HELD is raised where that changes the lane's state, and nothing else
changes. -/
structure State.LaneTurns (s t : State) (n : Nat) (l l' : Lane) : Prop where
  frame : t = { s with lanes := t.lanes, notices := t.notices }
  lane : s.laneBecomes t n l'
  notice : ∀ j, t.notice j =
    if j = .laneHeld ∧ l'.state ≠ l.state then (s.notice j).raised (some n) else s.notice j

namespace State.LaneTurns

variable {s t u : State} {n : Nat} {l l' l'' : Lane}

/-- Two turns, of which one at most changes the lane's state. -/
theorem trans (first : s.LaneTurns t n l l') (second : t.LaneTurns u n l' l'')
    (once : l'.state = l.state ∨ l''.state = l'.state) : s.LaneTurns u n l l'' where
  frame := by rw [second.frame, first.frame]
  lane m := by
    rw [second.lane m, first.lane m]
    split <;> rfl
  notice j := by
    rw [second.notice j, first.notice j]
    rcases once with h | h
    · simp [h]
    · simp [h]

/-- A lane rewritten in its state as it stands. -/
theorem of_modLane {f : Lane → Lane} (hl : s.lane? n = some l) (hf : (f l).state = l.state) :
    s.LaneTurns (s.modLane n f) n l (f l) where
  frame := rfl
  lane m := by rw [State.modLane_lane?, hl]; rfl
  notice j := by rw [State.modLane_notice, if_neg fun h => h.2 hf]

/-- A lane left as it is. -/
theorem refl (hl : s.lane? n = some l) : s.LaneTurns s n l l where
  frame := rfl
  lane m := by
    split
    · next hm => rw [hm, hl]
    · rfl
  notice j := by rw [if_neg fun h => h.2 rfl]

/-- A lane written with a changed state, and its notice. -/
theorem of_setLane (h : l'.state ≠ l.state) :
    s.LaneTurns ((s.setLane n (some l')).raise .laneHeld (some n)) n l l' where
  frame := rfl
  lane m := by rw [State.raise_laneOf, State.setLane_lane?]
  notice j := by
    rw [State.raise_notice]
    by_cases hj : j = .laneHeld
    · subst hj; simp [h]
    · simp [hj]

end State.LaneTurns

/-- The lane has no work in flight (section 4.5). -/
def State.idle (s : State) (l : Lane) : Prop := l.tentative = none ∧ s.wait l.scale = .none

theorem State.workInFlight_idle {s : State} {l : Lane} : s.workInFlight l = false ↔ s.idle l := by
  rw [← Bool.not_eq_true, State.workInFlight_iff, State.idle, not_or, not_not, not_not]

/-- A turn leaves the waits, so a lane that keeps its scale and holds no chest is idle after it as before. -/
theorem State.LaneTurns.idle {s t : State} {n : Nat} {l l' m : Lane} (h : s.LaneTurns t n l l') (hi : s.idle m) :
    t.idle m := by
  have hw : t.wait m.scale = s.wait m.scale := by rw [h.frame]; rfl
  exact ⟨hi.1, hw.trans hi.2⟩

/-- The lane that a hold cause reaches while it has no work in flight (R80). -/
def Lane.caused (l : Lane) (r : LaneHold) : Lane :=
  if l.state = .running then { l with state := .held r, oneShot := false } else l

/-- The lane once its one-shot flag has fired, if it was set (R79). -/
def Lane.fired (l : Lane) : Lane := if l.oneShot then { l with oneShot := false }.caused .oneDone else l

section Idle

variable {s : State} {n : Nat} {l : Lane} (hl : s.lane? n = some l) (hi : s.idle l)
include hl

/-- A lane with work in flight, or none that is pending, is not settled. -/
theorem State.settleLane_of_busy (h : l.tentative ≠ none ∨ ∀ r, l.state ≠ .holdPending r) : s.settleLane n = s := by
  unfold State.settleLane
  rw [hl]
  dsimp only
  split
  · next r hr =>
    have hbusy : s.workInFlight l = true := State.workInFlight_iff.mpr (.inl (h.resolve_right fun hno => hno r hr))
    rw [if_pos hbusy]
  · rfl

include hi

/-- A pending hold ends with the lane's last work in flight (R80). -/
theorem State.settleLane_turns : s.LaneTurns (s.settleLane n) n l l.settled := by
  unfold State.settleLane Lane.settled
  rw [hl]
  dsimp only
  cases hst : l.state with
  | running => exact .refl hl
  | held r => exact .refl hl
  | holdPending r =>
    have hno : ¬ s.workInFlight l = true := Bool.eq_false_iff.mp (State.workInFlight_idle.mpr hi)
    dsimp only
    rw [if_neg hno]
    exact .of_setLane (by simp [hst])

theorem State.holdCause_turns (r : LaneHold) : s.LaneTurns (s.holdCause n r true) n l (l.caused r) := by
  unfold State.holdCause Lane.caused
  rw [hl]
  dsimp only
  have hno : ¬ s.workInFlight l = true := Bool.eq_false_iff.mp (State.workInFlight_idle.mpr hi)
  by_cases hrun : l.state = .running
  · rw [if_pos hrun, if_pos hrun, if_neg hno]
    exact .of_setLane (by simp [hrun])
  · rw [if_neg hrun, if_neg hrun]
    exact .refl hl

theorem State.fireOneShot_turns : s.LaneTurns (s.fireOneShot n) n l l.fired := by
  unfold State.fireOneShot Lane.fired
  rw [State.laneIs_eq hl]
  by_cases hshot : l.oneShot = true
  · rw [if_pos hshot, if_pos hshot]
    have cleared : s.LaneTurns (s.modLane n (fun l => { l with oneShot := false })) n l { l with oneShot := false } :=
      .of_modLane hl rfl
    have hl' : (s.modLane n (fun l => { l with oneShot := false })).lane? n = some { l with oneShot := false } := by
      rw [State.modLane_self, hl]; rfl
    exact cleared.trans (State.holdCause_turns hl' hi .oneDone) (.inl rfl)
  · rw [if_neg hshot, if_neg hshot]
    exact .refl hl

end Idle

/-- What settling a lane can change. -/
theorem State.settleLane_eq (s : State) (n : Nat) :
    s.settleLane n = { s with lanes := (s.settleLane n).lanes, notices := (s.settleLane n).notices } := by
  unfold State.settleLane
  split
  · rfl
  · split
    · split <;> rfl
    · rfl

/-! ## The gates (R91 to R93) -/

theorem verificationGate_of_fit {v : VerifyState} (h : v.fit = true) : verificationGate v = none := by
  rcases VerifyState.fit_iff.mp h with ⟨t, rfl⟩ | ⟨g, rfl⟩
  · rfl
  · rfl

theorem verificationGate_testing {v : VerifyState} (h : ∃ p m b, v = .testing p m b) :
    verificationGate v = some .testing := by
  obtain ⟨p, m, b, rfl⟩ := h
  rfl

theorem verificationGate_notVerified {v : VerifyState} (h : v = .at .unverified ∨ v = .at .suspended) :
    verificationGate v = some .notVerified := by
  rcases h with rfl | rfl
  · rfl
  · rfl

section Screen

variable {r : Reading} {top : Nat}

theorem screen_unstable (h : r.stable = false) : screen r top = some .unstable := by
  simp [screen, h]

theorem screen_overCapacity (hs : r.stable = true) (h : r.overload = true ∨ top < r.grams) :
    screen r top = some .overCapacity := by
  simp [screen, hs, h]

theorem screen_underload (hs : r.stable = true) (ho : r.overload = false) (hg : r.grams ≤ top)
    (h : r.underload = true) : screen r top = some .underload := by
  simp [screen, hs, ho, hg, h]

theorem screen_of_passes (h : r.passes top) : screen r top = none := by
  obtain ⟨hs, ho, hg, hu⟩ := h
  simp [screen, hs, ho, hg, hu]

end Screen

/-- No lane names the scale. -/
theorem State.laneOf_none {s : State} {a : Nat} (h : ∀ e ∈ s.lanes, e.2.scale ≠ a) : s.laneOf a = none :=
  Table.find_eq_none fun e he => beq_eq_false_iff_ne.mpr (h e he)

/-- The lane that serves a scale names it. -/
theorem State.serves_scale {s : State} {n a : Nat} {l : Lane} (h : s.serves n l a) : l.scale = a :=
  beq_iff_eq.mp (Table.find_some h.2).2

section Decided

variable {s : State} {a n : Nat} {r : Reading} {l : Lane}

theorem State.decideGross_unfit {code : AnswerCode}
    (h : verificationGate (s.verification a).state = some code) : s.decideGross a r = .answer code := by
  unfold State.decideGross; rw [h]

theorem State.decideGross_noLane (hv : (s.verification a).state.fit = true) (h : s.laneOf a = none) :
    s.decideGross a r = .answer .noLane := by
  unfold State.decideGross; rw [verificationGate_of_fit hv, h]

/-- The gates from the lane's state on. -/
theorem State.decideGross_served (hv : (s.verification a).state.fit = true) (h : s.serves n l a) :
    s.decideGross a r =
      if l.state.isHeld = true then .answer .laneHeld
      else (screen r (s.station a).capacity).elim (s.netAndTest a n l r.grams) .answer := by
  unfold State.decideGross
  rw [verificationGate_of_fit hv, h.2]
  cases screen r (s.station a).capacity <;> rfl

theorem State.decideGross_held (hv : (s.verification a).state.fit = true) (h : s.serves n l a)
    (hh : ∃ u, l.state = .held u) : s.decideGross a r = .answer .laneHeld := by
  rw [State.decideGross_served hv h, if_pos (LaneState.isHeld_iff.mpr hh)]

theorem State.decideGross_screened {code : AnswerCode} (hv : (s.verification a).state.fit = true)
    (h : s.serves n l a) (hh : ∀ u, l.state ≠ .held u) (hc : screen r (s.station a).capacity = some code) :
    s.decideGross a r = .answer code := by
  rw [State.decideGross_served hv h, if_neg (fun he => (LaneState.isHeld_iff.mp he).elim hh), hc, Option.elim_some]

/-- The decision past the screen. -/
theorem State.decideGross_passed (hv : (s.verification a).state.fit = true) (h : s.serves n l a)
    (hh : ∀ u, l.state ≠ .held u) (hp : r.passes (s.station a).capacity) :
    s.decideGross a r = s.netAndTest a n l r.grams := by
  rw [State.decideGross_served hv h, if_neg (fun he => (LaneState.isHeld_iff.mp he).elim hh), screen_of_passes hp,
    Option.elim_none]

/-- A new chest on a lane that supplies no tare (R95). -/
theorem State.netAndTest_noTare {g : Nat} (hm : l.tareMode = .individual) (hp : l.pendingTare = none)
    (ht : l.tentative = none ∨ l.target = .hold) : s.netAndTest a n l g = .answer .noTare := by
  have htare : s.supplyTare l = none := by rw [State.supplyTare, hm, hp]
  unfold State.netAndTest
  cases hlot : l.target with
  | hold => simp only [htare]
  | lot k h =>
    rw [hlot] at ht
    simp only [ht.resolve_right nofun, htare]

end Decided

/-! ## The answer of a gate (R90, R80) -/

theorem exec_callGross {s : State} {a : Nat} {r : Reading} (h : s.hasGross a r) :
    exec (.callGross a) s = s.evaluateGross a r := by
  obtain ⟨hp, h1, h2, -, hslot⟩ := h
  have hexec : exec (.callGross a) s = callGross a s := rfl
  have hcall : s.grossCall a = some r := by
    rw [State.grossCall, if_pos ⟨hp, by simp [h1, h2]⟩, hslot]
  rw [hexec, callGross, hcall]

/-- The state after a gate has answered: the lane whose work in flight that ends is settled. -/
def State.gateAnswered (s : State) (a : Nat) (code : AnswerCode) : State :=
  (s.laneOf a).elim (s.answerCall a code 0) fun e => (s.answerCall a code 0).settleLane e.1

theorem State.evaluateGross_answer {s : State} {a : Nat} {r : Reading} {code : AnswerCode}
    (hd : s.decideGross a r = .answer code) : s.evaluateGross a r = .next (s.gateAnswered a code) := by
  unfold State.evaluateGross State.gateAnswered
  rw [hd]
  cases s.laneOf a <;> rfl

/-- Settling a lane leaves the stations and the waits. -/
theorem State.answersCall_settleLane {s t : State} {a : Nat} {x : Answer} (h : s.answersCall t a x) (n : Nat) :
    s.answersCall (t.settleLane n) a x := by
  have hstation (b : Nat) : (t.settleLane n).station b = t.station b := by rw [t.settleLane_eq n]; rfl
  have hwait (b : Nat) : (t.settleLane n).wait b = t.wait b := by rw [t.settleLane_eq n]; rfl
  exact State.answersCall_congr h (fun _ => rfl) (fun _ => rfl) hstation hwait

theorem State.answersGross_gateAnswered {s : State} {a : Nat} (hj : (s.station a).join = .active)
    (code : AnswerCode) : s.answersGross (s.gateAnswered a code) a code := by
  have hcall := (State.answersOnly (code := code) (v := 0) hj rfl).2
  refine ⟨?_, ?_, fun n l r hserves ht hpending => ?_⟩
  · unfold State.gateAnswered
    cases s.laneOf a with
    | none => exact hcall
    | some e => exact State.answersCall_settleLane hcall e.1
  · rintro (hnone | ⟨n, l, hserves, hbusy⟩)
    · rw [State.gateAnswered, hnone]; rfl
    · have hl : (s.answerCall a code 0).lane? n = some l := (s.answerCall_laneOf a code 0 n).trans hserves.1
      rw [State.gateAnswered, hserves.2, Option.elim_some, State.settleLane_of_busy hl hbusy]
      rfl
  · have hl : (s.answerCall a code 0).lane? n = some l := (s.answerCall_laneOf a code 0 n).trans hserves.1
    have hidle : (s.answerCall a code 0).idle l := ⟨ht, by rw [State.serves_scale hserves]; exact hcall.2.1⟩
    obtain ⟨hframe, hlane, hnotice⟩ := State.settleLane_turns hl hidle
    have hsettled : l.settled = { l with state := .held r } := by rw [Lane.settled, hpending]
    rw [hsettled] at hlane hnotice
    rw [State.gateAnswered, hserves.2, Option.elim_some]
    generalize (s.answerCall a code 0).settleLane n = t at *
    refine ⟨by rw [hframe]; rfl, hlane, State.raisesAs_if.mpr fun j => ?_⟩
    simpa [hpending] using hnotice j

/-- A gross call that a gate answers. -/
theorem State.exec_callGross_answer {s : State} {a : Nat} {r : Reading} {code : AnswerCode} (h : s.hasGross a r)
    (hd : s.decideGross a r = .answer code) :
    ∃ t, exec (.callGross a) s = .next t ∧ s.answersGross t a code := by
  have hj := h.2.2.2.1
  exact ⟨_, (exec_callGross h).trans (State.evaluateGross_answer hd), State.answersGross_gateAnswered hj code⟩

/-- Settles O46: each gate in its order answers, and the answer ends a pending hold. -/
theorem grossCallIsScreened : Obligations.GrossCallIsScreened := by
  intro s a r hgross v top only
  have answered {code : AnswerCode} (hd : s.decideGross a r = .answer code) : only code :=
    State.exec_callGross_answer hgross hd
  refine ⟨fun hv => ?_, fun hv => ?_, fun hv => ⟨fun hno => ?_, fun n l hserves => ⟨fun hh => ?_, fun hh =>
    ⟨fun hs => ?_, fun hs hc => ?_, fun hs ho hg hu => ?_, fun hp hm hpending ht => ?_⟩⟩⟩⟩
  · exact answered (State.decideGross_unfit (verificationGate_testing hv))
  · exact answered (State.decideGross_unfit (verificationGate_notVerified hv))
  · exact answered (State.decideGross_noLane hv (State.laneOf_none hno))
  · exact answered (State.decideGross_held hv hserves hh)
  · exact answered (State.decideGross_screened hv hserves hh (screen_unstable hs))
  · exact answered (State.decideGross_screened hv hserves hh (screen_overCapacity hs hc))
  · exact answered (State.decideGross_screened hv hserves hh (screen_underload hs ho hg hu))
  · exact answered ((State.decideGross_passed hv hserves hh hp).trans (State.netAndTest_noTare hm hpending ht))

/-! ## The tare call (R110, R76) -/

theorem exec_callTare {s : State} {a : Nat} {r : Reading} (hp : s.part = .running) (h1 : 1 ≤ a) (h2 : a ≤ 14)
    (hslot : (s.station a).slot = some (.tare r)) : exec (.callTare a) s = .next (s.takeTare a r) :=
  congrArg Host.Outcome.next (takeFrom_taken hp h1 h2 hslot rfl)

theorem State.tareInWindow_iff {s : State} {k g : Nat} : tareInWindow (s.classD k) g = true ↔
    ∃ c lo hi, s.class? k = some c ∧ c.window = some (lo, hi) ∧ lo ≤ g ∧ g ≤ hi := by
  unfold State.classD
  cases s.class? k with
  | none => simp [tareInWindow, TareClass.blank]
  | some c =>
    rcases hw : c.window with _ | ⟨lo, hi⟩
    · simp [tareInWindow, hw]
    · simp [tareInWindow, hw]

/-- The answer of the tare gates once the reading is in the window. -/
def Lane.tareTaken (l : Lane) (n g : Nat) : TareDecision :=
  { code := if l.pendingTare = none then .tareSet else .tareReplaced, value := g, lane := some n }

section Tare

variable {s : State} {a n : Nat} {r : Reading} {l : Lane}

theorem State.decideTare_unfit {code : AnswerCode}
    (h : verificationGate (s.verification a).state = some code) : s.decideTare a r = .plain code := by
  unfold State.decideTare; rw [h]

theorem State.decideTare_noLane (hv : (s.verification a).state.fit = true) (h : s.laneOf a = none) :
    s.decideTare a r = .plain .noLane := by
  unfold State.decideTare; rw [verificationGate_of_fit hv, h]

/-- The gates from the lane's state on. -/
theorem State.decideTare_served (hv : (s.verification a).state.fit = true) (h : s.serves n l a) :
    s.decideTare a r =
      if l.state ≠ .running then .plain .laneHeld
      else if l.tareMode = .nominal then .plain .notWanted
      else (screen r (s.station a).capacity).elim
        (if tareInWindow (s.classD l.tareClass) r.grams = true then l.tareTaken n r.grams else .plain .tareOutOfWindow)
        .plain := by
  unfold State.decideTare Lane.tareTaken
  rw [verificationGate_of_fit hv, h.2]
  dsimp only
  cases screen r (s.station a).capacity with
  | some code => rfl
  | none => cases tareInWindow (s.classD l.tareClass) r.grams <;> cases l.pendingTare <;> rfl

/-- The screen and the window of a tare call that a RUNNING lane in INDIVIDUAL mode wants. -/
theorem State.decideTare_wanted (hv : (s.verification a).state.fit = true) (h : s.serves n l a)
    (hrun : l.state = .running) (hm : l.tareMode = .individual) :
    (∀ code, screen r (s.station a).capacity = some code → s.decideTare a r = .plain code) ∧
    (r.passes (s.station a).capacity → s.decideTare a r =
      if tareInWindow (s.classD l.tareClass) r.grams = true then l.tareTaken n r.grams
      else .plain .tareOutOfWindow) := by
  have hnominal : ¬ l.tareMode = .nominal := by rw [hm]; exact nofun
  have hserved := State.decideTare_served (r := r) hv h
  rw [if_neg (not_not.mpr hrun), if_neg hnominal] at hserved
  refine ⟨fun code hc => ?_, fun hp => ?_⟩
  · rw [hserved, hc, Option.elim_some]
  · rw [hserved, screen_of_passes hp, Option.elim_none]

/-- A tare call that a gate answers changes nothing else. -/
theorem State.takeTare_plain {code : AnswerCode} (hd : s.decideTare a r = .plain code) :
    s.takeTare a r = s.answerCall a code 0 := by
  unfold State.takeTare; rw [hd]; rfl

/-- The pending tare becomes the reading. -/
theorem State.takeTare_taken (hj : (s.station a).join = .active) (hl : s.lane? n = some l)
    (hd : s.decideTare a r = l.tareTaken n r.grams) :
    let t := s.takeTare a r
    t = { s with stations := t.stations, waits := t.waits, lanes := t.lanes } ∧
      s.answersCall t a (.answer (if l.pendingTare = none then .tareSet else .tareReplaced) r.grams) ∧
      s.laneBecomes t n { l with pendingTare := some r.grams } := by
  unfold State.takeTare
  rw [hd, Lane.tareTaken]
  generalize (if l.pendingTare = none then AnswerCode.tareSet else .tareReplaced) = code
  have hcall := s.answersCall_answerCall a code r.grams (Join.hears_active hj)
  have hframe := s.answerCall_eq a code r.grams
  have hlane (m : Nat) := s.answerCall_laneOf a code r.grams m
  dsimp only
  generalize s.answerCall a code r.grams = u at *
  refine ⟨by rw [hframe]; rfl, hcall, fun m => ?_⟩
  rw [State.modLane_lane?, hlane, hlane, hl]
  rfl

end Tare

/-- Settles O50: the gates in their order, then the window of the lane's class. -/
theorem tareCallIsTaken : Obligations.TareCallIsTaken := by
  intro s a r hp h1 h14 hj hslot v top only
  have hexec := exec_callTare hp h1 h14 hslot
  have answered {code : AnswerCode} (hd : s.decideTare a r = .plain code) : only code :=
    ⟨_, hexec, State.answersOnly hj (State.takeTare_plain hd)⟩
  refine ⟨fun hv => ?_, fun hv => ?_, fun hv => ⟨fun hno => ?_, fun n l hserves =>
    ⟨fun hst => ?_, fun hrun hm => ?_, fun hrun hm => ?_⟩⟩⟩
  · exact answered (State.decideTare_unfit (verificationGate_testing hv))
  · exact answered (State.decideTare_unfit (verificationGate_notVerified hv))
  · exact answered (State.decideTare_noLane hv (State.laneOf_none hno))
  · exact answered ((State.decideTare_served hv hserves).trans (if_pos hst))
  · exact answered ((State.decideTare_served hv hserves).trans (by rw [if_neg (not_not.mpr hrun), if_pos hm]))
  · obtain ⟨hscreened, hpassed⟩ := State.decideTare_wanted (r := r) hv hserves hrun hm
    refine ⟨fun hs => ?_, fun hs hc => ?_, fun hs ho hg hu => ?_, fun hpass => ?_⟩
    · exact answered (hscreened _ (screen_unstable hs))
    · exact answered (hscreened _ (screen_overCapacity hs hc))
    · exact answered (hscreened _ (screen_underload hs ho hg hu))
    · intro within
      have hwindow : tareInWindow (s.classD l.tareClass) r.grams = true ↔ within := State.tareInWindow_iff
      refine ⟨fun hout => ?_, fun hin => ?_⟩
      · exact answered ((hpassed hpass).trans (if_neg (mt hwindow.mp hout)))
      · exact ⟨_, hexec, State.takeTare_taken hj hserves.1 ((hpassed hpass).trans (if_pos (hwindow.mpr hin)))⟩

end Sys2Proof.Machine
end

section
/-! PROOFS. The outcome of a gross call past the gates (R94 to R98), the room that it needs (R106), and the call that is left
waiting for it (O49). -/

namespace Sys2Proof.Machine

/-! ## The outcome (R94 to R98) -/

theorem State.supplyTare_eq {s : State} {l : Lane} {x : Nat} (h : s.supplies l x) : s.supplyTare l = some x := by
  unfold State.supplyTare
  rcases h with ⟨hm, c, hc, rfl⟩ | ⟨hm, hp⟩
  · rw [hm, State.classD_eq hc]
  · rw [hm, hp]

section Outcome

variable {s : State} {a n k h x d : Nat} {r : Reading} {l : Lane} {lot : Lot} {net : Int}

/-- The decision on a call past the gates. -/
theorem State.weighs_decideGross (hw : s.weighs a r n l) : s.decideGross a r = s.netAndTest a n l r.grams := by
  obtain ⟨-, hv, hserves, -, -, hh, hp⟩ := hw
  exact State.decideGross_passed hv hserves hh hp

/-- A call on a lot lane with no tentative chest (R95). -/
theorem State.decideGross_new (hw : s.weighs a r n l) (ht : l.target = .lot k h) (hnone : l.tentative = none)
    (hx : s.supplies l x) (hd : (s.station a).division = d) :
    s.decideGross a r = .outcome (weigh n a r.grams d x l.tareMode)
      (s.lotOutcome k h none ((r.grams / d * d : Nat) - (x : Int)) d) := by
  subst hd
  rw [State.weighs_decideGross hw, State.netAndTest]
  simp only [ht, hnone, State.supplyTare_eq hx]
  rfl

/-- A call on a lot lane that holds a tentative chest: the reweigh (R94). -/
theorem State.decideGross_reweigh {id : Nat} {c : Chest} (hw : s.weighs a r n l) (ht : l.target = .lot k h)
    (hid : l.tentative = some id) (hc : s.chest? id = some c) (hd : (s.station a).division = d) :
    s.decideGross a r = .outcome (weigh n a r.grams d c.tare c.tareSource)
      (s.lotOutcome k h (some id) ((r.grams / d * d : Nat) - (c.tare : Int)) d) := by
  subst hd
  rw [State.weighs_decideGross hw, State.netAndTest]
  simp only [ht, hid, State.chestD_eq hc]
  rfl

/-- A call on a lane mapped to HOLD (R98). -/
theorem State.decideGross_hold (hw : s.weighs a r n l) (ht : l.target = .hold) (hx : s.supplies l x)
    (hd : (s.station a).division = d) :
    s.decideGross a r = .outcome (weigh n a r.grams d x l.tareMode) .unassigned := by
  subst hd
  rw [State.weighs_decideGross hw, State.netAndTest]
  simp only [ht, State.supplyTare_eq hx]

variable (hl : s.lot? k = some lot)
include hl

theorem State.lotOutcome_firstFail {f : FailReason} (hf : lot.fails net d f) :
    s.lotOutcome k h none net d = .firstFail k f := by
  simp only [State.lotOutcome, State.lotD_eq hl, acceptanceTest_of_fails hf]

theorem State.lotOutcome_secondFail {f : FailReason} (id : Nat) (hf : lot.fails net d f) :
    s.lotOutcome k h (some id) net d = .secondFail id k := by
  simp only [State.lotOutcome, State.lotD_eq hl, acceptanceTest_of_fails hf]

theorem State.lotOutcome_accept {b : Bulk} (hb : s.bulk? lot.bulk = some b) (ha : lot.accepts net d)
    (hc : b.covers (lot.recorded net)) (chest : Option Nat) :
    s.lotOutcome k h chest net d = .accept chest k h (lot.recorded net) := by
  have hbalances : b.balances (lot.recorded net) = true := decide_eq_true hc
  simp only [State.lotOutcome, State.lotD_eq hl, acceptanceTest_of_accepts ha, State.bulkD_eq hb, hbalances, if_true]

theorem State.lotOutcome_balance {b : Bulk} (hb : s.bulk? lot.bulk = some b) (ha : lot.accepts net d)
    (hc : ¬ b.covers (lot.recorded net)) (chest : Option Nat) :
    s.lotOutcome k h chest net d = .balance chest k (lot.recorded net) := by
  have hbalances : b.balances (lot.recorded net) = false := decide_eq_false hc
  simp only [State.lotOutcome, State.lotD_eq hl, acceptanceTest_of_accepts ha, State.bulkD_eq hb, hbalances,
    Bool.false_eq_true, if_false]

end Outcome

/-- Every outcome on a lot lane without a tentative chest needs lot room. -/
theorem State.lotOutcome_needs_lot (s : State) (k h d : Nat) (net : Int) :
    (s.lotOutcome k h none net d).needs.1 = some k := by
  unfold State.lotOutcome
  dsimp only
  split
  · rfl
  · split
    · rfl
    · rfl

/-! ## The first kind of room lacking (R106) -/

section Room

variable {s : State} {o : GrossOutcome}

theorem Lot.room_iff {l : Lot} : l.room = true ↔ l.accepted + l.tentative < l.planned := decide_eq_true_iff

theorem State.queueRoom_iff {h : Nat} : s.queueRoom h = true ↔ (s.head h).queue.length < 16 :=
  decide_eq_true_iff

theorem State.lacking_lot {k : Nat} {l : Lot} (hk : o.needs.1 = some k) (hl : s.lot? k = some l)
    (hfull : l.planned ≤ l.accepted + l.tentative) : s.lacking o = .lot := by
  have hroom : l.room = false := Bool.eq_false_iff.mpr (mt Lot.room_iff.mp (Nat.not_lt.mpr hfull))
  simp [State.lacking, hk, State.lotD_eq hl, hroom]

/-- The lots in which the outcome needs room have it. -/
def State.lotsHaveRoom (s : State) (o : GrossOutcome) : Prop := ∀ k ∈ o.needs.1, (s.lotD k).room = true

theorem State.lotsHaveRoom_of_lot {k : Nat} {l : Lot} (hk : o.needs.1 = some k) (hl : s.lot? k = some l)
    (hroom : l.accepted + l.tentative < l.planned) : s.lotsHaveRoom o := by
  intro j hj
  obtain rfl := Option.some.inj (hk.symm.trans hj)
  rw [State.lotD_eq hl]
  exact Lot.room_iff.mpr hroom

theorem State.lotsHaveRoom_of_none (hk : o.needs.1 = none) : s.lotsHaveRoom o := by
  intro j hj
  rw [hk] at hj
  cases hj

/-- The lot check passes. -/
theorem State.lacking_of_lots (hroom : s.lotsHaveRoom o) : s.lacking o =
    if o.needs.2.1.any (fun a => !s.queueRoom a) = true then .queue
    else if (o.needs.2.2 && !s.poolRoom) = true then .pool else .none := by
  have hlot : o.needs.1.any (fun k => !(s.lotD k).room) = false := by
    rw [Option.any_eq_false]
    intro k hk
    rw [hroom k hk]
    rfl
  unfold State.lacking
  dsimp only
  rw [hlot]
  rfl

theorem State.lacking_queue {h : Nat} (hroom : s.lotsHaveRoom o) (hh : o.needs.2.1 = some h)
    (hfull : 16 ≤ (s.head h).queue.length) : s.lacking o = .queue := by
  have hqueue : s.queueRoom h = false := Bool.eq_false_iff.mpr (mt State.queueRoom_iff.mp (Nat.not_lt.mpr hfull))
  simp [State.lacking_of_lots hroom, hh, hqueue]

theorem State.lacking_pool (hroom : s.lotsHaveRoom o) (hh : o.needs.2.1 = none) (hp : o.needs.2.2 = true)
    (hfull : 64 ≤ s.pool.length) : s.lacking o = .pool := by
  have hpool : s.poolRoom = false := Bool.eq_false_iff.mpr (mt State.poolRoom_iff.mp (Nat.not_lt.mpr hfull))
  simp [State.lacking_of_lots hroom, hh, hp, hpool]

/-- The outcome finds room of every kind that it needs. -/
theorem State.lacking_none (hroom : s.lotsHaveRoom o) (hh : ∀ h ∈ o.needs.2.1, (s.head h).queue.length < 16)
    (hp : o.needs.2.2 = true → s.pool.length < 64) : s.lacking o = .none := by
  have hqueue : o.needs.2.1.any (fun a => !s.queueRoom a) = false := by
    rw [Option.any_eq_false]
    intro h hmem
    rw [State.queueRoom_iff.mpr (hh h hmem)]
    rfl
  have hpool : (o.needs.2.2 && !s.poolRoom) = false := by
    cases hneed : o.needs.2.2 with
    | false => rfl
    | true => rw [State.poolRoom_iff.mpr (hp hneed)]; rfl
  rw [State.lacking_of_lots hroom, hqueue, hpool]
  rfl

end Room

/-! ## A call left waiting (R106, R107) -/

/-- A hold cause that reaches a lane with work in flight is pending, and raises nothing (R80). -/
theorem State.holdCause_busy {s : State} {n : Nat} {l : Lane} (hl : s.lane? n = some l) (hb : s.workInFlight l = true)
    (r : LaneHold) (auto : Bool) :
    let t := s.holdCause n r auto
    t = { s with lanes := t.lanes } ∧
      s.laneBecomes t n (if l.state = .running then { l with state := .holdPending r, oneShot := false } else l) := by
  unfold State.holdCause
  rw [hl]
  dsimp only
  by_cases hrun : l.state = .running
  · rw [if_pos hrun, if_pos hb, if_pos hrun]
    exact ⟨rfl, fun m => State.setLane_lane? s n m _⟩
  · rw [if_neg hrun, if_neg hrun]
    exact ⟨rfl, (State.LaneTurns.refl hl).lane⟩

/-- What a call left waiting changes, on the lane of its scale. -/
theorem State.leaveWaiting_spec {s : State} {a n : Nat} {l : Lane} (hl : s.lane? n = some l) (ha : l.scale = a)
    (kind : WaitKind) : s.leavesWaiting (s.leaveWaiting a n kind) a n l kind := by
  unfold State.leaveWaiting
  dsimp only
  by_cases hbegins : kind = .pool ∧ s.wait a ≠ .pool
  · obtain ⟨rfl, hw⟩ := hbegins
    have hbusy : (s.setWait a .pool).workInFlight l = true :=
      State.workInFlight_iff.mpr (.inr (by rw [ha, State.setWait_self]; exact nofun))
    obtain ⟨hframe, hlane⟩ := State.holdCause_busy ((s.setWait_laneOf a .pool n).trans hl) hbusy .holdFull true
    rw [if_pos ⟨rfl, hw⟩]
    generalize (s.setWait a .pool).holdCause n .holdFull true = u at *
    refine ⟨fun b => ?_, fun hno => (hno.elim (absurd rfl) hw).elim, fun _ _ => ⟨?_, hlane, ?_⟩⟩
    · rw [State.raise_wait, hframe]
      exact State.setWait_wait s a b .pool
    · rw [hframe]; rfl
    · have hnotice (j : NoticeKind) : u.notice j = s.notice j := by rw [hframe]; rfl
      refine State.raisesAs_if.mpr fun j => ?_
      rw [State.raise_notice, hnotice, hnotice]
      split
      · next hj => rw [hj]
      · rfl
  · rw [if_neg hbegins]
    exact ⟨fun b => State.setWait_wait s a b kind, fun _ => rfl, fun hk hw => absurd ⟨hk, hw⟩ hbegins⟩

/-- A gross call whose outcome lacks room. -/
theorem State.exec_callGross_waits {s : State} {a n : Nat} {r : Reading} {l : Lane} {w : Weighed} {o : GrossOutcome}
    {kind : WaitKind} (hw : s.weighs a r n l) (hd : s.decideGross a r = .outcome w o) (hlane : w.lane = n)
    (hk : s.lacking o = kind) (hne : kind ≠ .none) :
    ∃ t, exec (.callGross a) s = .next t ∧ s.leavesWaiting t a n l kind := by
  obtain ⟨hgross, -, hserves, -⟩ := hw
  subst hlane
  refine ⟨_, (exec_callGross hgross).trans ?_, State.leaveWaiting_spec hserves.1 (State.serves_scale hserves) kind⟩
  unfold State.evaluateGross
  rw [hd]
  dsimp only
  rw [hk, if_neg hne]

/-- Settles O49: the outcome, by the lane's target and its tentative chest, and the first kind of room that it lacks. -/
theorem grossCallWaits : Obligations.GrossCallWaits := by
  intro s a n r l hw d g waits
  refine ⟨fun k h lot ht hlot => ⟨fun tare hnone hx => ?_, fun id c hid hc => ?_⟩, fun tare ht hx hfull => ?_⟩
  · have hd := State.decideGross_new hw ht hnone hx rfl
    refine ⟨fun hfull => ?_, fun b hb hroom ha => ⟨fun hcovers hfull => ?_, fun hcovers hfull => ?_⟩⟩
    · exact State.exec_callGross_waits hw hd rfl (State.lacking_lot (State.lotOutcome_needs_lot ..) hlot hfull) nofun
    · rw [State.lotOutcome_accept hlot hb ha hcovers] at hd
      exact State.exec_callGross_waits hw hd rfl
        (State.lacking_queue (State.lotsHaveRoom_of_lot rfl hlot hroom) rfl hfull) nofun
    · rw [State.lotOutcome_balance hlot hb ha hcovers] at hd
      exact State.exec_callGross_waits hw hd rfl
        (State.lacking_pool (State.lotsHaveRoom_of_lot rfl hlot hroom) rfl rfl hfull) nofun
  · have hd := State.decideGross_reweigh hw ht hid hc rfl
    refine ⟨fun f hf hfull => ?_, fun b hb ha => ⟨fun hcovers hfull => ?_, fun hcovers hfull => ?_⟩⟩
    · rw [State.lotOutcome_secondFail hlot id hf] at hd
      exact State.exec_callGross_waits hw hd rfl (State.lacking_pool (State.lotsHaveRoom_of_none rfl) rfl rfl hfull) nofun
    · rw [State.lotOutcome_accept hlot hb ha hcovers] at hd
      exact State.exec_callGross_waits hw hd rfl (State.lacking_queue (State.lotsHaveRoom_of_none rfl) rfl hfull) nofun
    · rw [State.lotOutcome_balance hlot hb ha hcovers] at hd
      exact State.exec_callGross_waits hw hd rfl (State.lacking_pool (State.lotsHaveRoom_of_none rfl) rfl rfl hfull) nofun
  · exact State.exec_callGross_waits hw (State.decideGross_hold hw ht hx rfl) rfl
      (State.lacking_pool (State.lotsHaveRoom_of_none rfl) rfl rfl hfull) nofun

end Sys2Proof.Machine
end

section
/-! PROOFS. The outcomes of a gross call that finds room but accepts no chest (O48): what each writes, and how its lane
turns. -/

namespace Sys2Proof.Machine

/-! ## The call that finds room (R29, R99) -/

/-- The lowest-numbered FREE record at or above `i`. -/
theorem firstFree_eq {m : Table Chest} {id : Nat} (hfree : m.get? id = none) (n i : Nat) (hi : i ≤ id) (hn : id < i + n)
    (hused : ∀ j, i ≤ j → j < id → m.get? j ≠ none) : firstFree m n i = some id := by
  induction n generalizing i with
  | zero => omega
  | succ n ih =>
    unfold firstFree
    by_cases he : i = id
    · subst he
      rw [hfree]
      rfl
    · have hiused : ¬ (m.get? i).isNone = true := fun hnone =>
        hused i le_rfl (by omega) (Option.isNone_iff_eq_none.mp hnone)
      rw [if_neg hiused]
      exact ih (i + 1) (by omega) (by omega) fun j hj => hused j (by omega)

theorem State.freeRecord_eq {s : State} {id : Nat} (h : s.nextRecord id) : s.freeRecord = some id := by
  obtain ⟨hid, hfree, hused⟩ := h
  exact firstFree_eq hfree Config.chestRecords 0 (Nat.zero_le id) (by simpa [Config.chestRecords] using hid)
    fun j _ hj => hused j hj

section Taken

variable {s : State} {a : Nat} {r : Reading} {w : Weighed} {o : GrossOutcome}

/-- An outcome that creates a chest takes the next record (R29). -/
theorem State.evaluateGross_creates {id : Nat} (hd : s.decideGross a r = .outcome w o) (hk : s.lacking o = .none)
    (hid : s.nextRecord id) : s.evaluateGross a r =
      .next ((s.answerCall a (s.outcomeAnswer o).1 (s.outcomeAnswer o).2).takeOutcome w o id) := by
  have hfree := State.freeRecord_eq hid
  have hfound : ¬ (o.creates = true ∧ s.freeRecord = none) := fun h => by rw [hfree] at h; cases h.2
  unfold State.evaluateGross
  rw [hd]
  dsimp only
  rw [if_pos hk, if_neg hfound, hfree, Option.getD_some]

/-- An outcome of the lane's tentative chest takes no new record. -/
theorem State.evaluateGross_reuses (hd : s.decideGross a r = .outcome w o) (hk : s.lacking o = .none)
    (ho : o.creates = false) : s.evaluateGross a r =
      .next ((s.answerCall a (s.outcomeAnswer o).1 (s.outcomeAnswer o).2).takeOutcome w o (s.freeRecord.getD 0)) := by
  have hfound : ¬ (o.creates = true ∧ s.freeRecord = none) := fun h => by rw [ho] at h; cases h.1
  unfold State.evaluateGross
  rw [hd]
  dsimp only
  rw [if_pos hk, if_neg hfound]

end Taken

/-! ## How the lane turns (R79, R80) -/

theorem Lane.caused_tentative (l : Lane) (r : LaneHold) : (l.caused r).tentative = l.tentative := by
  unfold Lane.caused; split <;> rfl

theorem Lane.caused_scale (l : Lane) (r : LaneHold) : (l.caused r).scale = l.scale := by
  unfold Lane.caused; split <;> rfl

/-- A hold cause makes the lane HELD, which then stays so, or changes nothing. -/
theorem Lane.caused_once (l : Lane) (r : LaneHold) :
    (l.caused r).state = l.state ∨ (l.caused r).settled.state = (l.caused r).state := by
  unfold Lane.caused
  split
  · exact .inr rfl
  · exact .inl rfl

theorem Lane.fired_tentative (l : Lane) : l.fired.tentative = l.tentative := by
  unfold Lane.fired; split <;> simp [Lane.caused_tentative]

theorem Lane.fired_scale (l : Lane) : l.fired.scale = l.scale := by
  unfold Lane.fired; split <;> simp [Lane.caused_scale]

theorem Lane.fired_once (l : Lane) : l.fired.state = l.state ∨ l.fired.settled.state = l.fired.state := by
  unfold Lane.fired
  split
  · exact Lane.caused_once { l with oneShot := false } .oneDone
  · exact .inl rfl

/-- A lane without a tentative chest, after one that it let through. -/
theorem Lane.settled_fired {l : Lane} (h : l.tentative = none) : l.fired.settled = l.letThrough := by
  obtain ⟨state, target, scale, mode, cls, pending, watch, oneShot, tentative⟩ := l
  obtain rfl : tentative = none := h
  cases state with
  | running => cases oneShot <;> rfl
  | holdPending r => cases oneShot <;> rfl
  | held r => cases oneShot <;> rfl

/-- A lane that the hold cause `r` reaches and whose work in flight, its tentative chest too, has ended (R80, R104). -/
def Lane.stopped (l : Lane) (r : LaneHold) : Lane :=
  { l with
    tentative := none
    oneShot := if l.state = .running then false else l.oneShot
    state := match l.state with
      | .running => .held r
      | .holdPending u => .held u
      | .held u => .held u }

theorem Lane.settled_caused {l : Lane} (h : l.tentative = none) (r : LaneHold) : (l.caused r).settled = l.stopped r := by
  obtain ⟨state, target, scale, mode, cls, pending, watch, oneShot, tentative⟩ := l
  obtain rfl : tentative = none := h
  cases state <;> rfl

section Turns

variable {s t : State} {n : Nat} {l l' : Lane}

/-- A turn of an idle lane, and the end of its pending hold. -/
theorem State.LaneTurns.settle (h : s.LaneTurns t n l l') (hi : s.idle l) (ht : l'.tentative = l.tentative)
    (hs : l'.scale = l.scale) (once : l'.state = l.state ∨ l'.settled.state = l'.state) :
    s.LaneTurns (t.settleLane n) n l l'.settled := by
  have hl' : t.lane? n = some l' := (h.lane n).trans (if_pos rfl)
  have hi' : s.idle l' := ⟨ht.trans hi.1, by rw [hs]; exact hi.2⟩
  exact h.trans (State.settleLane_turns hl' (h.idle hi')) once

variable (hl : s.lane? n = some l) (hi : s.idle l)
include hl hi

theorem State.stop_turns (r : LaneHold) :
    s.LaneTurns ((s.holdCause n r true).settleLane n) n l (l.stopped r) := by
  have turned := (State.holdCause_turns hl hi r).settle hi (l.caused_tentative r) (l.caused_scale r) (l.caused_once r)
  rwa [Lane.settled_caused hi.1] at turned

theorem State.letThrough_turns : s.LaneTurns ((s.fireOneShot n).settleLane n) n l l.letThrough := by
  have turned := (State.fireOneShot_turns hl hi).settle hi l.fired_tentative l.fired_scale l.fired_once
  rwa [Lane.settled_fired hi.1] at turned

end Turns

/-! ## A chest held for a call (R35, R103 to R105) -/

/-- The chest `c` of record `id` enters the hold pool for a call on lane `n`, which gives up what `f` takes from it, and the
notice of the outcome is raised. -/
def State.chestHeld (s : State) (n id : Nat) (c : Chest) (r : HoldReason) (o : Option Nat) (f : Lane → Lane)
    (kind : NoticeKind) : State :=
  ((s.modLane n f).holdChest id c r o).raise kind (some n)

section Held

variable (s : State) (n id : Nat) (c : Chest) (r : HoldReason) (o : Option Nat) (f : Lane → Lane) (kind : NoticeKind)

theorem State.chestHeld_eq : s.chestHeld n id c r o f kind = { s with
    lanes := (s.chestHeld n id c r o f kind).lanes
    chests := (s.chestHeld n id c r o f kind).chests
    pool := s.pool ++ [id]
    notices := (s.chestHeld n id c r o f kind).notices } := rfl

theorem State.chestHeld_chest? (j : Nat) : (s.chestHeld n id c r o f kind).chest? j =
    if j = id then some { c with place := .held r o } else s.chest? j :=
  State.holdChest_chest? (s.modLane n f) id j c r o

theorem State.chestHeld_lane? {l : Lane} (hl : s.lane? n = some l) (m : Nat) :
    (s.chestHeld n id c r o f kind).lane? m = if m = n then some (f l) else s.lane? m := by
  refine (State.modLane_lane? s n m f).trans ?_
  rw [hl]
  rfl

theorem State.chestHeld_notice (j : NoticeKind) : (s.chestHeld n id c r o f kind).notice j =
    if j = kind then (s.notice kind).raised (some n) else s.notice j :=
  State.raise_notice ((s.modLane n f).holdChest id c r o) kind j (some n)

end Held

/-- The chest of a call that is answered HELD is held, whatever becomes of the lots, once the lane has turned. -/
theorem State.holdsChest_of_turns {s v u t : State} {a n id : Nat} {l l' : Lane} {c : Chest} {r : HoldReason}
    {o : Option Nat} {f : Lane → Lane} {kind : NoticeKind} (hj : (s.station a).join = .active)
    (hl : s.lane? n = some l) (hf : (f l).state = l.state)
    (ha : l.scale = a) (hft : (f l).tentative = none) (hfs : (f l).scale = l.scale)
    (hv : v = s.answerCall a .held r.code) (hu : u = { v.chestHeld n id c r o f kind with lots := u.lots })
    (hkind : kind ≠ .laneHeld) (turns : u.lane? n = some (f l) → u.idle (f l) → u.LaneTurns t n (f l) l') :
    t = { s with
      stations := t.stations
      waits := t.waits
      lanes := t.lanes
      lots := t.lots
      chests := t.chests
      pool := t.pool
      notices := t.notices } ∧ t.lots = u.lots ∧ s.holdsChest t a n l l' id c r o kind := by
  obtain ⟨hframe, hcall⟩ := State.answersOnly hj hv
  have hvlane (m : Nat) : v.lane? m = s.lane? m := by rw [hframe]; rfl
  have hvchest (j : Nat) : v.chest? j = s.chest? j := by rw [hframe]; rfl
  have hvnotice (j : NoticeKind) : v.notice j = s.notice j := by rw [hframe]; rfl
  have hvpool : v.pool = s.pool := by rw [hframe]
  have hlane := v.chestHeld_lane? n id c r o f kind ((hvlane n).trans hl)
  have hchest := v.chestHeld_chest? n id c r o f kind
  have hnotice := v.chestHeld_notice n id c r o f kind
  rw [v.chestHeld_eq] at hu
  generalize v.chestHeld n id c r o f kind = z at *
  have hulane (m : Nat) : u.lane? m = z.lane? m := by rw [hu]; rfl
  have huidle : u.wait (f l).scale = .none := by
    rw [hfs, ha, hu]
    exact hcall.2.1
  obtain ⟨tframe, tlane, tnotice⟩ := turns ((hulane n).trans ((hlane n).trans (if_pos rfl))) ⟨hft, huidle⟩
  have hstation (b : Nat) : t.station b = v.station b := by rw [tframe, hu]; rfl
  have hwait (b : Nat) : t.wait b = v.wait b := by rw [tframe, hu]; rfl
  have hunotice (j : NoticeKind) : u.notice j = z.notice j := by rw [hu]; rfl
  have htchest (j : Nat) : t.chest? j = z.chest? j := by rw [tframe, hu]; rfl
  refine ⟨?_, by rw [tframe], ?_, ?_, fun j => ?_, fun m => ?_, State.raisesAs_if.mpr fun j => ?_⟩
  · rw [tframe, hu, hframe]
  · exact State.answersCall_congr hcall (fun _ => rfl) (fun _ => rfl) hstation hwait
  · rw [tframe, hu, hvpool]
  · rw [htchest, hchest, hvchest]
  · rw [tlane, hulane, hlane, hvlane]
    split <;> rfl
  · rw [tnotice, hunotice, hnotice, hf, hvnotice, hvnotice]
    by_cases hk : j = kind
    · subst hk; simp [hkind]
    · simp [hk]

/-- A tentative count changed in the lot's own record (R8). -/
theorem State.countsTentative_of_modify {s t : State} {k : Nat} {f : Nat → Nat}
    (h : t.lots = s.lots.modify k (fun l => { l with tentative := f l.tentative })) : s.countsTentative t k f := by
  intro j
  rw [State.lot?, h]
  refine (Table.get?_modify s.lots k j _).trans ?_
  split
  · next hj => rw [hj]; rfl
  · rfl

/-! ## Each outcome as the writes that it makes (R101 to R105) -/

/-- The lane that gives its pending tare to a new chest (R95). -/
def Lane.withoutTare (l : Lane) : Lane := { l with pendingTare := none }

/-- The lane that no longer names a tentative chest. -/
def Lane.withoutTentative (l : Lane) : Lane := { l with tentative := none }

section Outcomes

variable (s : State) (id k x fresh : Nat) {n : Nat} {w : Weighed} (hn : w.lane = n)
include hn

/-- The second fail: the chest is held, and its lot counts it off (R103). -/
theorem State.takeOutcome_secondFail {c : Chest} (hc : s.chest? id = some c) :
    ∃ u : State, u = { s.chestHeld n id (w.reweighed c) .secondFail (some k) Lane.withoutTentative .chestHeld with
        lots := u.lots } ∧ u.lots = s.lots.modify k Lot.lessTentative ∧
      s.takeOutcome w (.secondFail id k) fresh = u.settleLane n := by
  subst hn
  refine ⟨(s.chestHeld w.lane id (w.reweighed c) .secondFail (some k) Lane.withoutTentative .chestHeld).modLot k
    Lot.lessTentative, rfl, rfl, ?_⟩
  simp only [State.takeOutcome, State.chestD_eq hc]
  rfl

/-- BALANCE of a new chest, which no lot counted (R104). -/
theorem State.takeOutcome_balance_new :
    ∃ u : State, u = { s.chestHeld n fresh { w.newChest with recNet := some x } .balance (some k) Lane.withoutTare
        .balance with lots := u.lots } ∧ u.lots = s.lots ∧
      s.takeOutcome w (.balance none k x) fresh = (u.holdCause n .balance true).settleLane n := by
  subst hn
  exact ⟨s.chestHeld w.lane fresh { w.newChest with recNet := some x } .balance (some k) Lane.withoutTare .balance,
    rfl, rfl, rfl⟩

/-- BALANCE of a tentative chest, which its lot counts off (R104). -/
theorem State.takeOutcome_balance_reweigh {c : Chest} (hc : s.chest? id = some c) :
    ∃ u : State, u = { s.chestHeld n id { w.reweighed c with recNet := some x } .balance (some k)
        Lane.withoutTentative .balance with lots := u.lots } ∧ u.lots = s.lots.modify k Lot.lessTentative ∧
      s.takeOutcome w (.balance (some id) k x) fresh = (u.holdCause n .balance true).settleLane n := by
  subst hn
  refine ⟨(s.chestHeld w.lane id { w.reweighed c with recNet := some x } .balance (some k) Lane.withoutTentative
    .balance).modLot k Lot.lessTentative, rfl, rfl, ?_⟩
  simp only [State.takeOutcome, State.chestFor, State.chestD_eq hc]
  rfl

/-- A chest on a lane mapped to HOLD (R105). -/
theorem State.takeOutcome_unassigned :
    ∃ u : State, u = { s.chestHeld n fresh w.newChest .unassigned none Lane.withoutTare .chestHeld with
        lots := u.lots } ∧ u.lots = s.lots ∧ s.takeOutcome w .unassigned fresh = (u.fireOneShot n).settleLane n := by
  subst hn
  exact ⟨s.chestHeld w.lane fresh w.newChest .unassigned none Lane.withoutTare .chestHeld, rfl, rfl, rfl⟩

/-- The first fail: the chest stays on its lane, and its lot counts it (R101). -/
theorem State.takeOutcome_firstFail {l : Lane} (hl : s.lane? n = some l) (f : FailReason) :
    let t := s.takeOutcome w (.firstFail k f) id
    t = { s with lanes := t.lanes, lots := t.lots, chests := t.chests } ∧
      t.lots = s.lots.modify k (fun l => { l with tentative := l.tentative + 1 }) ∧
      s.laneBecomes t n { l with pendingTare := none, tentative := some id } ∧
      ∀ j, t.chest? j = if j = id then some { w.newChest with place := .tentative k, failReason := some f }
        else s.chest? j := by
  subst hn
  refine ⟨rfl, rfl, fun m => ?_, fun j => State.setChest_chest? (s.modLane w.lane Lane.withoutTare) id j
    (some { w.newChest with place := .tentative k, failReason := some f })⟩
  have htaken : s.takeOutcome w (.firstFail k f) id =
      (((s.modLane w.lane Lane.withoutTare).setChest id
        (some { w.newChest with place := .tentative k, failReason := some f })).modLot k
          (fun l => { l with tentative := l.tentative + 1 })).modLane w.lane
            (fun l => { l with tentative := some id }) := rfl
  rw [htaken, State.modLane_lane?, State.modLot_laneOf, State.modLot_laneOf, State.setChest_laneOf,
    State.setChest_laneOf, State.modLane_lane?, State.modLane_lane?, if_pos rfl, hl]
  split <;> rfl

end Outcomes

/-- The first fail: the chest stays tentative on its lane, and its lot counts it (R101). -/
theorem State.firstFail_spec {s v : State} {a n k id : Nat} {w : Weighed} {l : Lane} {f : FailReason}
    (hj : (s.station a).join = .active) (hn : w.lane = n) (hl : s.lane? n = some l)
    (hv : v = s.answerCall a .reweigh f.code) :
    let t := v.takeOutcome w (.firstFail k f) id
    t = { s with stations := t.stations, waits := t.waits, lanes := t.lanes, lots := t.lots, chests := t.chests } ∧
      s.answersCall t a (.answer .reweigh f.code) ∧ s.countsTentative t k (· + 1) ∧
      s.laneBecomes t n { l with pendingTare := none, tentative := some id } ∧
      ∀ j, t.chest? j = if j = id then some { w.newChest with place := .tentative k, failReason := some f }
        else s.chest? j := by
  obtain ⟨hframe, hcall⟩ := State.answersOnly hj hv
  have hvlane (m : Nat) : v.lane? m = s.lane? m := by rw [hframe]; rfl
  have hvchest (j : Nat) : v.chest? j = s.chest? j := by rw [hframe]; rfl
  have hvlots : v.lots = s.lots := by rw [hframe]
  obtain ⟨tframe, tlots, tlane, tchest⟩ := v.takeOutcome_firstFail id k hn ((hvlane n).trans hl) f
  dsimp only
  generalize v.takeOutcome w (.firstFail k f) id = t at *
  have hstation (b : Nat) : t.station b = v.station b := by rw [tframe]; rfl
  have hwait (b : Nat) : t.wait b = v.wait b := by rw [tframe]; rfl
  refine ⟨by rw [tframe, hframe], State.answersCall_congr hcall (fun _ => rfl) (fun _ => rfl) hstation hwait,
    State.countsTentative_of_modify (tlots.trans ?_), fun m => (tlane m).trans ?_, fun j => (tchest j).trans ?_⟩
  · rw [hvlots]
  · rw [hvlane]
  · rw [hvchest]

/-- Settles O48: the first fail, and each outcome that holds the chest with the turn that its lane makes. -/
theorem grossCallHoldsChest : Obligations.GrossCallHoldsChest := by
  intro s a n r l hw d g balanced
  obtain ⟨hgross, -, hserves, -⟩ := id hw
  have hj := hgross.2.2.2.1
  have hl := hserves.1
  have hexec := exec_callGross hgross
  obtain rfl := State.serves_scale hserves
  refine ⟨fun k h lot ht hlot => ⟨fun tare id hnone hx hid hroom => ?_, fun id c hid hc hpool => ?_⟩,
    fun tare id ht hnone hx hid hpool => ?_⟩
  · have hd := State.decideGross_new hw ht hnone hx rfl
    have hroomy {o : GrossOutcome} (hk : o.needs.1 = some k) := State.lotsHaveRoom_of_lot hk hlot hroom
    refine ⟨fun f hf => ?_, fun b hb ha hcovers hpool => ?_⟩
    · rw [State.lotOutcome_firstFail hlot hf] at hd
      have htaken := State.evaluateGross_creates hd (State.lacking_none (hroomy rfl) nofun nofun) hid
      exact ⟨_, hexec.trans htaken, State.firstFail_spec hj rfl hl rfl⟩
    · rw [State.lotOutcome_balance hlot hb ha hcovers] at hd
      have htaken := State.evaluateGross_creates hd (State.lacking_none (hroomy rfl) nofun fun _ => hpool) hid
      obtain ⟨u, hu, hlots, houtcome⟩ := State.takeOutcome_balance_new
        (s.answerCall l.scale .held HoldReason.balance.code) k (lot.recorded (g - tare)) id
        (w := weigh n l.scale r.grams d tare l.tareMode) rfl
      obtain ⟨hframe, htlots, hheld⟩ := State.holdsChest_of_turns hj hl rfl rfl hnone rfl rfl hu nofun
        fun hl hi => State.stop_turns hl hi .balance
      rw [htlots, hlots, State.answerCall_lots] at hframe
      exact ⟨_, hexec.trans (htaken.trans (congrArg _ houtcome)), hframe, hheld⟩
  · have hd := State.decideGross_reweigh hw ht hid hc rfl
    refine ⟨fun f hf => ?_, fun b hb ha hcovers => ?_⟩
    · rw [State.lotOutcome_secondFail hlot id hf] at hd
      have htaken := State.evaluateGross_reuses hd
        (State.lacking_none (State.lotsHaveRoom_of_none rfl) nofun fun _ => hpool) rfl
      obtain ⟨u, hu, hlots, houtcome⟩ := State.takeOutcome_secondFail
        (s.answerCall l.scale .held HoldReason.secondFail.code) id k (s.freeRecord.getD 0)
        (w := weigh n l.scale r.grams d c.tare c.tareSource) rfl ((s.answerCall_chestOf _ _ _ id).trans hc)
      obtain ⟨hframe, htlots, hheld⟩ := State.holdsChest_of_turns hj hl rfl rfl rfl rfl rfl hu nofun State.settleLane_turns
      have hcounts := State.countsTentative_of_modify (f := (· - 1)) (htlots.trans hlots)
      exact ⟨_, hexec.trans (htaken.trans (congrArg _ houtcome)), hframe, hcounts, hheld⟩
    · rw [State.lotOutcome_balance hlot hb ha hcovers] at hd
      have htaken := State.evaluateGross_reuses hd
        (State.lacking_none (State.lotsHaveRoom_of_none rfl) nofun fun _ => hpool) rfl
      obtain ⟨u, hu, hlots, houtcome⟩ := State.takeOutcome_balance_reweigh
        (s.answerCall l.scale .held HoldReason.balance.code) id k (lot.recorded (g - c.tare)) (s.freeRecord.getD 0)
        (w := weigh n l.scale r.grams d c.tare c.tareSource) rfl ((s.answerCall_chestOf _ _ _ id).trans hc)
      obtain ⟨hframe, htlots, hheld⟩ := State.holdsChest_of_turns hj hl rfl rfl rfl rfl rfl hu nofun
        fun hl hi => State.stop_turns hl hi .balance
      have hcounts := State.countsTentative_of_modify (f := (· - 1)) (htlots.trans hlots)
      exact ⟨_, hexec.trans (htaken.trans (congrArg _ houtcome)), hframe, hcounts, hheld⟩
  · have hd := State.decideGross_hold hw ht hx rfl
    have htaken := State.evaluateGross_creates hd
      (State.lacking_none (State.lotsHaveRoom_of_none rfl) nofun fun _ => hpool) hid
    obtain ⟨u, hu, hlots, houtcome⟩ := State.takeOutcome_unassigned
      (s.answerCall l.scale .held HoldReason.unassigned.code) id (w := weigh n l.scale r.grams d tare l.tareMode) rfl
    obtain ⟨hframe, htlots, hheld⟩ := State.holdsChest_of_turns hj hl rfl rfl hnone rfl rfl hu nofun State.letThrough_turns
    rw [htlots, hlots, State.answerCall_lots] at hframe
    exact ⟨_, hexec.trans (htaken.trans (congrArg _ houtcome)), hframe, hheld⟩

end Sys2Proof.Machine
end

section
/-! PROOFS. A gross call whose chest is accepted (O47): the acceptance, and then the lane's part, by whether the lot
fills. -/

namespace Sys2Proof.Machine

/-! ## The lanes of a lot, by targets and scales -/

/-- The target and the scale of a mapped lane. -/
def State.feed? (s : State) (n : Nat) : Option (LaneTarget × Nat) := (s.lane? n).map fun l => (l.target, l.scale)

theorem State.laneIs_feed {s : State} {n : Nat} {p : LaneTarget × Nat → Bool} :
    s.laneIs n (fun l => p (l.target, l.scale)) = (s.feed? n).any p := by
  rw [State.laneIs_eq_any, State.feed?, Option.any_map]

/-- The feeders of a lot and their scales are known from the lanes' targets and scales. -/
theorem State.feeds_congr {s t : State} (h : ∀ n, t.feed? n = s.feed? n) (k : Nat) :
    t.feeders k = s.feeders k ∧ ∀ b, t.feedsFrom k b = s.feedsFrom k b := by
  have htarget (n : Nat) : t.target? n = s.target? n := by
    have hfst := congrArg (Option.map Prod.fst) (h n)
    rw [State.feed?, State.feed?, Option.map_map, Option.map_map] at hfst
    exact hfst
  have hfeeders := State.feeders_congr htarget k
  refine ⟨hfeeders, fun b => ?_⟩
  have hscale (n : Nat) : t.laneIs n (fun l => l.scale == b) = s.laneIs n (fun l => l.scale == b) := by
    have hany (u : State) := State.laneIs_feed (s := u) (n := n) (p := fun e => e.2 == b)
    rw [hany, hany, h]
  rw [State.feedsFrom, State.feedsFrom, hfeeders]
  exact congrArg (List.any _) (funext hscale)

/-! ## The end of an acceptance (R78, R79, R80, R10) -/

/-- LANE_WATCH of a watched lane (R78). -/
def State.watchLane (s : State) (n : Nat) : State :=
  if s.laneIs n (fun l => l.watch) then s.raise .laneWatch (some n) else s

theorem State.watchLane_spec {s : State} {n : Nat} {l : Lane} (hl : s.lane? n = some l) :
    s.watchLane n = { s with notices := (s.watchLane n).notices } ∧
      ∀ j, (s.watchLane n).notice j =
        if j = .laneWatch ∧ l.watch = true then (s.notice j).raised (some n) else s.notice j := by
  unfold State.watchLane
  rw [State.laneIs_eq hl]
  by_cases hw : l.watch = true
  · rw [if_pos hw]
    refine ⟨rfl, fun j => ?_⟩
    rw [State.raise_notice]
    by_cases hj : j = .laneWatch
    · subst hj; simp [hw]
    · simp [hj]
  · rw [if_neg hw]
    exact ⟨rfl, fun j => by rw [if_neg fun h => hw h.2]⟩

/-- The lane's part by whether the lot is full. -/
theorem State.endAcceptance_eq {s : State} {n k : Nat} {l : Lane} {lot : Lot} (hl : s.lane? n = some l)
    (hlot : s.lot? k = some lot) : s.endAcceptance n k =
      if lot.accepted = lot.planned then (s.watchLane n).fillIfFull k
      else ((s.watchLane n).fireOneShot n).settleLane n := by
  have hsame : (s.watchLane n).lot? k = some lot := by rw [(State.watchLane_spec hl).1]; exact hlot
  have hdef : s.endAcceptance n k =
      if (s.watchLane n).lotIs k (fun l => l.accepted == l.planned) = true then (s.watchLane n).fillIfFull k
      else ((s.watchLane n).fireOneShot n).settleLane n := rfl
  rw [hdef, State.lotIs_eq hsame]
  exact if_congr beq_iff_eq rfl rfl

/-! ## The chest taken in (R9, R100, R102) -/

/-- The lane without what the chest takes from it: its tentative chest, or its pending tare for a new one (R95). -/
def Lane.givenUp (l : Lane) : Lane :=
  { l with tentative := none, pendingTare := if l.tentative = none then none else l.pendingTare }

theorem Lane.withoutTare_eq {l : Lane} (h : l.tentative = none) : l.withoutTare = l.givenUp := by
  rw [Lane.withoutTare, Lane.givenUp, if_pos h, ← h]

theorem Lane.withoutTentative_eq {l : Lane} (h : l.tentative ≠ none) : l.withoutTentative = l.givenUp := by
  rw [Lane.withoutTentative, Lane.givenUp, if_neg h]

/-- From `s` to `v` the call of `a` on lane `n`, `l`, is answered ACCEPTED, the lane has given up its part, and the chest
`c` is in the lot, whose fill and the lane's own end are still to come. -/
structure State.TakesIn (s v : State) (a n : Nat) (l : Lane) (k h : Nat) (lot : Lot) (id : Nat) (c : Chest) (x : Nat) :
    Prop where
  frame : v = { s with
    stations := v.stations, waits := v.waits, lanes := v.lanes, lots := v.lots, bulks := v.bulks, chests := v.chests
    heads := v.heads }
  answered : s.answersCall v a (.answer .accepted (lot.accepted + 1))
  lane : s.laneBecomes v n l.givenUp
  chest : v.chest? id = some
    ({ c with place := .accepted k (lot.accepted + 1) lot.bulk, recNet := some x, reprints := 0 }.queuedAt .first h)
  otherChest : ∀ j, j ≠ id → v.chest? j = s.chest? j
  bulk : ∀ j, v.bulk? j =
    if j = lot.bulk then (s.bulk? j).map (fun b => { b with drawn := b.drawn + x }) else s.bulk? j
  head : ∀ b, v.head b = if b = h then (s.head h).joined { chest := id, kind := .first } else s.head b
  otherLot : ∀ j, j ≠ k → v.lot? j = s.lot? j
  lot : v.lot? k = some (lot.withChest c x l.tentative.isSome)

/-- An acceptance for an answered call, on a lane that gives up its part. -/
theorem State.TakesIn.of_acceptChest {s u : State} {a n k h id x : Nat} {l : Lane} {lot : Lot} {c : Chest} {b : Bool}
    {f : Lane → Lane} (hj : (s.station a).join = .active) (hl : s.lane? n = some l) (hf : f l = l.givenUp)
    (hb : b = l.tentative.isSome) (hlot : s.lot? k = some lot) (hu : u = s.answerCall a .accepted (lot.accepted + 1)) :
    s.TakesIn ((u.modLane n f).acceptChest id c k h x b) a n l k h lot id c x := by
  obtain ⟨uframe, hcall⟩ := State.answersOnly hj hu
  have hulot : (u.modLane n f).lot? k = some lot := by rw [State.modLane_lotOf, uframe]; exact hlot
  obtain ⟨hframe, hchest, hotherChest, hbulk, hhead, hotherLot, hown⟩ := State.acceptChest_spec hulot id h x c b
  have hlane (m : Nat) : (u.modLane n f).lane? m = if m = n then some l.givenUp else s.lane? m := by
    have hulane (m : Nat) : u.lane? m = s.lane? m := by rw [uframe]; rfl
    rw [State.modLane_lane?, hulane, hulane, hl, Option.map_some, hf]
  generalize (u.modLane n f).acceptChest id c k h x b = v at *
  have hstation (e : Nat) : v.station e = u.station e := by rw [hframe]; rfl
  have hwait (e : Nat) : v.wait e = u.wait e := by rw [hframe]; rfl
  refine ⟨?_, ?_, fun m => ?_, hchest, fun j hj => ?_, fun j => ?_, fun e => ?_, fun j hj => ?_, hb ▸ hown⟩
  · rw [hframe, State.modLane, uframe]
  · exact State.answersCall_congr hcall (fun _ => rfl) (fun _ => rfl) hstation hwait
  · rw [hframe]
    exact hlane m
  · rw [hotherChest j hj, State.modLane_chestOf, uframe]
    rfl
  · rw [hbulk, State.modLane_bulkOf, uframe]
    rfl
  · rw [hhead, State.modLane_head, State.modLane_head, uframe]
    rfl
  · rw [hotherLot j hj, State.modLane_lotOf, uframe]
    rfl

namespace State.TakesIn

variable {s v t : State} {a n k h id x : Nat} {l : Lane} {lot : Lot} {c : Chest}
  (taken : s.TakesIn v a n l k h lot id c x)
include taken

/-- The acceptance, once the lot has filled or not. -/
theorem accepts (hchests : t.chests = v.chests) (hbulks : t.bulks = v.bulks) (hheads : t.heads = v.heads)
    (hother : ∀ j, j ≠ k → t.lot? j = v.lot? j) (hopen : lot.accepted + 1 ≠ lot.planned → t.lot? k = v.lot? k)
    (hfull : lot.accepted + 1 = lot.planned → t.lot? k = some { lot.withChest c x l.tentative.isSome with
      state := .finishing
      cause := some .filled
      mappedLanes := lot.mappedLanes - (s.feeders k).length }) :
    s.accepts t id c k lot h x l.tentative.isSome := by
  have hchest (j : Nat) : t.chest? j = v.chest? j := by rw [State.chest?, State.chest?, hchests]
  have hbulk (j : Nat) : t.bulk? j = v.bulk? j := by rw [State.bulk?, State.bulk?, hbulks]
  have hhead (b : Nat) : t.head b = v.head b := by rw [State.head, State.head, hheads]
  exact ⟨(hchest id).trans taken.chest, fun j hj => (hchest j).trans (taken.otherChest j hj),
    fun j => (hbulk j).trans (taken.bulk j), fun b => (hhead b).trans (taken.head b),
    fun j hj => (hother j hj).trans (taken.otherLot j hj), fun hno => (hopen hno).trans taken.lot, hfull⟩

theorem station (b : Nat) : v.station b =
    if b = a then (s.station a).answered (.answer .accepted (lot.accepted + 1)) else s.station b := by
  obtain ⟨hself, -, hother⟩ := taken.answered
  split
  · next hb => rw [hb, hself]
  · next hb => exact (hother b hb).1

theorem wait (b : Nat) : v.wait b = if b = a then .none else s.wait b := by
  obtain ⟨-, hself, hother⟩ := taken.answered
  split
  · next hb => rw [hb, hself]
  · next hb => exact (hother b hb).2

theorem notice (j : NoticeKind) : v.notice j = s.notice j := by
  rw [taken.frame]; rfl

/-- The lanes of the lot are as before, with their scales. -/
theorem feeds (hl : s.lane? n = some l) : v.feeders k = s.feeders k ∧ ∀ b, v.feedsFrom k b = s.feedsFrom k b := by
  refine State.feeds_congr (fun m => ?_) k
  rw [State.feed?, taken.lane m, State.feed?]
  split
  · next hm => rw [hm, hl]; rfl
  · rfl

/-- The lot is not full: the lane is let through (R79, R80). -/
theorem weighsIn_open (ha : l.scale = a) (hopen : lot.accepted + 1 ≠ lot.planned) :
    s.weighsIn (((v.watchLane n).fireOneShot n).settleLane n) a n l k h lot id c x := by
  have hvlane : v.lane? n = some l.givenUp := (taken.lane n).trans (if_pos rfl)
  obtain ⟨zframe, znotice⟩ := State.watchLane_spec hvlane
  have hvwait := taken.wait
  have hvnotice := taken.notice
  generalize v.watchLane n = z at *
  have hzlane (m : Nat) : z.lane? m = v.lane? m := by rw [zframe]; rfl
  have hzidle : z.idle l.givenUp := by
    refine ⟨rfl, ?_⟩
    rw [zframe]
    exact (hvwait l.scale).trans (if_pos ha)
  obtain ⟨tframe, tlane, tnotice⟩ := State.letThrough_turns ((hzlane n).trans hvlane) hzidle
  generalize (z.fireOneShot n).settleLane n = t at *
  have hlots : t.lots = v.lots := by rw [tframe, zframe]
  have hlot (j : Nat) : t.lot? j = v.lot? j := by rw [State.lot?, State.lot?, hlots]
  have hstation (b : Nat) : t.station b = v.station b := by rw [tframe, zframe]; rfl
  have hwait (b : Nat) : t.wait b = v.wait b := by rw [tframe, zframe]; rfl
  refine ⟨?_, fun b => (hstation b).trans (taken.station b), fun b => ?_, ?_, fun _ => ⟨fun m => ?_, ?_⟩,
    fun hfull => absurd hfull hopen⟩
  · rw [tframe, zframe, taken.frame]
  · rw [hwait, hvwait]
    simp only [hopen, false_and, or_false]
  · exact taken.accepts (by rw [tframe, zframe]) (by rw [tframe, zframe]) (by rw [tframe, zframe])
      (fun j _ => hlot j) (fun _ => hlot k) fun hfull => absurd hfull hopen
  · rw [tlane, hzlane, taken.lane]
    split <;> rfl
  · refine State.raisesAs_if.mpr fun j => ?_
    rw [tnotice, znotice, hvnotice]
    have hstate : l.givenUp.letThrough.state = l.letThrough.state := rfl
    rw [hstate]
    by_cases hheld : j = .laneHeld
    · subst hheld
      by_cases hturned : l.letThrough.state = l.state <;> simp [Lane.givenUp, hturned]
    · by_cases hwatch : j = .laneWatch
      · subst hwatch; simp [Lane.givenUp]
      · simp [hheld, hwatch]

/-- The lot is full: it is FINISHING, and its lanes are unmapped (R10). -/
theorem weighsIn_full (hl : s.lane? n = some l) (hn : n ∈ s.feeders k) (hfull : lot.accepted + 1 = lot.planned) :
    s.weighsIn ((v.watchLane n).fillIfFull k) a n l k h lot id c x := by
  have hvlane : v.lane? n = some l.givenUp := (taken.lane n).trans (if_pos rfl)
  obtain ⟨hfeeders, hfrom⟩ := taken.feeds hl
  obtain ⟨zframe, znotice⟩ := State.watchLane_spec hvlane
  have hvnotice := taken.notice
  have hvwait := taken.wait
  generalize v.watchLane n = z at *
  have hzlot (j : Nat) : z.lot? j = v.lot? j := by rw [zframe]; rfl
  obtain ⟨tframe, tother, tlot, tlane, twait, tnotice⟩ :=
    State.fillIfFull_spec ((hzlot k).trans taken.lot) hfull (Nat.succ_ne_zero lot.outstanding)
  have hzfeeders : z.feeders k = s.feeders k := by rw [zframe]; exact hfeeders
  have hzfrom (b : Nat) : z.feedsFrom k b = s.feedsFrom k b := by rw [zframe]; exact hfrom b
  have hzlane (m : Nat) : z.lane? m = v.lane? m := by rw [zframe]; rfl
  have hzwait (b : Nat) : z.wait b = v.wait b := by rw [zframe]; rfl
  rw [hzfeeders] at tlot tlane
  generalize z.fillIfFull k = t at *
  have hstation (b : Nat) : t.station b = v.station b := by rw [tframe, zframe]; rfl
  refine ⟨?_, fun b => (hstation b).trans (taken.station b), fun b => ?_, ?_, fun hopen => absurd hfull hopen,
    fun _ => ⟨fun m => ?_, fun j => ?_⟩⟩
  · rw [tframe, zframe, taken.frame]
  · rw [twait, hzfrom, hzwait, hvwait]
    by_cases hb : b = a <;> simp [hb, hfull]
  · exact taken.accepts (by rw [tframe, zframe]) (by rw [tframe, zframe]) (by rw [tframe, zframe])
      (fun j hj => (tother j hj).trans (hzlot j)) (fun hopen => absurd hfull hopen) fun _ => tlot
  · rw [tlane, hzlane, taken.lane]
    by_cases hm : m = n
    · rw [hm, if_pos hn, if_pos hn]
    · rw [if_neg hm]
  · rw [tnotice, znotice, hvnotice]
    by_cases hwatch : j = .laneWatch
    · subst hwatch
      by_cases hw : l.watch = true <;> simp [Lane.givenUp, hw]
    · by_cases hfilled : j = .lotFilled <;> simp [hwatch, hfilled]

/-- The acceptance, with the end that it brings (R10, R78 to R80). -/
theorem weighsIn (hl : s.lane? n = some l) (ha : l.scale = a) (hn : n ∈ s.feeders k) :
    s.weighsIn (v.endAcceptance n k) a n l k h lot id c x := by
  rw [State.endAcceptance_eq ((taken.lane n).trans (if_pos rfl)) taken.lot]
  by_cases hfull : lot.accepted + 1 = lot.planned
  · exact (if_pos hfull) ▸ taken.weighsIn_full hl hn hfull
  · exact (if_neg hfull) ▸ taken.weighsIn_open ha hfull

end State.TakesIn

section Accepted

variable (s : State) (k h x id fresh : Nat) (w : Weighed)

/-- The answer of an acceptance is the chest's serial (R99). -/
theorem State.outcomeAnswer_accept {lot : Lot} (hlot : s.lot? k = some lot) (chest : Option Nat) :
    s.outcomeAnswer (.accept chest k h x) = (.accepted, lot.accepted + 1) := by
  rw [State.outcomeAnswer, State.lotD_eq hlot]

theorem State.takeOutcome_accept_new : s.takeOutcome w (.accept none k h x) fresh =
    ((s.modLane w.lane Lane.withoutTare).acceptChest fresh w.newChest k h x false).endAcceptance w.lane k := rfl

theorem State.takeOutcome_accept_reweigh {c : Chest} (hc : s.chest? id = some c) :
    s.takeOutcome w (.accept (some id) k h x) fresh =
      ((s.modLane w.lane Lane.withoutTentative).acceptChest id (w.reweighed c) k h x true).endAcceptance w.lane k := by
  simp only [State.takeOutcome, State.chestFor, State.chestD_eq hc]
  rfl

end Accepted

/-- The place that a chest leaves does not show once it is taken in. -/
theorem State.weighsIn_place {s t : State} {a n k h id x : Nat} {l : Lane} {lot : Lot} {c : Chest} (p : Place) :
    s.weighsIn t a n l k h lot id { c with place := p } x ↔ s.weighsIn t a n l k h lot id c x := Iff.rfl

/-- Settles O47: a new chest, and the tentative chest at its reweigh. -/
theorem grossCallAcceptsChest : Obligations.GrossCallAcceptsChest := by
  intro s a n k h r l lot b hw ht hlot hb hqueue d g
  obtain ⟨hgross, -, hserves, h1, h8, -⟩ := id hw
  have hj := hgross.2.2.2.1
  have hl := hserves.1
  have hexec := exec_callGross hgross
  have hn : n ∈ s.feeders k := State.mem_feeders.mpr ⟨⟨h1, h8⟩, l, hl, Lane.feeds_iff.mpr ⟨h, ht⟩⟩
  have hroom : ∀ e ∈ some h, (s.head e).queue.length < 16 := fun e he => Option.some.inj he ▸ hqueue
  obtain rfl := State.serves_scale hserves
  refine ⟨fun tare id hnone hx hid hlotRoom => ?_, fun id c hid hc => ?_⟩
  · intro x ha hcovers
    have hd := State.decideGross_new hw ht hnone hx rfl
    rw [State.lotOutcome_accept hlot hb ha hcovers] at hd
    have htaken := State.evaluateGross_creates hd
      (State.lacking_none (State.lotsHaveRoom_of_lot rfl hlot hlotRoom) hroom nofun) hid
    rw [State.outcomeAnswer_accept s k h x hlot, State.takeOutcome_accept_new] at htaken
    have taken := State.TakesIn.of_acceptChest (id := id) (h := h) (x := x) (b := false)
      (c := (weigh n l.scale r.grams d tare l.tareMode).newChest) hj hl (Lane.withoutTare_eq hnone)
      (by simp [hnone]) hlot rfl
    exact ⟨_, hexec.trans htaken, (State.weighsIn_place (.tentative k)).mpr (taken.weighsIn hl rfl hn)⟩
  · intro x ha hcovers
    have hd := State.decideGross_reweigh hw ht hid hc rfl
    rw [State.lotOutcome_accept hlot hb ha hcovers] at hd
    have htaken := State.evaluateGross_reuses hd
      (State.lacking_none (State.lotsHaveRoom_of_none rfl) hroom nofun) rfl
    rw [State.outcomeAnswer_accept s k h x hlot,
      State.takeOutcome_accept_reweigh _ k h x id _ _ ((s.answerCall_chestOf _ _ _ id).trans hc)] at htaken
    have taken := State.TakesIn.of_acceptChest (id := id) (h := h) (x := x) (b := true) (c := c.weighedAgain g d) hj hl
      (Lane.withoutTentative_eq (by simp [hid])) (by simp [hid]) hlot rfl
    exact ⟨_, hexec.trans htaken, taken.weighsIn hl rfl hn⟩

end Sys2Proof.Machine
end

section
/-! PROOFS. The head commands (O40 to O42): each command's checks in their order, and the head, the chests and the lots that
it leaves. -/

namespace Sys2Proof.Machine

theorem State.isKind_eq_true {s : State} {a : Nat} {k : StationKind} :
    s.isKind a k = true ↔ 1 ≤ a ∧ a ≤ 14 ∧ (s.station a).kind = k := by
  simp [State.isKind, and_assoc]

/-! ## PAUSE_HEAD and RESUME_HEAD (R125, R126) -/

theorem pauseHead_eq (a : Nat) (s : State) :
    pauseHead a s = if 1 ≤ a ∧ a ≤ 14 ∧ (s.station a).kind = .stencil
      then okay (s.modHead a Head.pauseAsked) [byte (s.head a).pauseAsked.state.code] else refuse s .noSuch := by
  simp only [pauseHead, checked_cons, checked_nil, State.isKind_eq_true, State.modHead_self, u1_eq]

theorem HeadState.resumes_iff {st : HeadState} : st.resumes = true ↔ st = .pausePending ∨ ∃ r, st = .paused r := by
  cases st <;> simp [HeadState.resumes]

theorem resumeHead_eq (a one : Nat) (s : State) :
    resumeHead (a, one) s =
      if 1 ≤ a ∧ a ≤ 14 ∧ (s.station a).kind = .stencil then
        if one ≤ 1 then
          if (s.head a).state.resumes = true then
            okay (s.modHead a fun h => h.resumed (one == 1)) [byte ((s.head a).resumed (one == 1)).state.code]
          else refuse s .badState
        else refuse s .badValue
      else refuse s .noSuch := by
  simp only [resumeHead, checked_cons, checked_nil, State.isKind_eq_true, decide_eq_true_eq,
    State.modHead_self, u1_eq]

/-- Settles O40: the checks in order, and the head by the state that the command finds. -/
theorem headIsPausedAndResumed : Obligations.HeadIsPausedAndResumed := by
  intro s a hs head h
  refine ⟨fun hlatch => ⟨fun hno => ?_, fun hhead => ?_⟩, fun one hlatch =>
    ⟨fun hno => ?_, fun hhead hone => ?_, fun hhead hone hst => ?_, fun hhead hone hst => ?_⟩⟩
  · exact exec_refused hs hlatch rfl ((pauseHead_eq a s).trans (if_neg hno))
  · refine ⟨_, h.pauseAsked.state, exec_okay hs hlatch rfl ((pauseHead_eq a s).trans (if_pos hhead)), rfl,
      fun b hb => (State.modHead_head s a b _).trans (if_neg hb), State.modHead_self s a _, ?_, ?_, fun r hr => ?_⟩
    · rintro (hst | hst) <;> simp only [Head.pauseAsked, hst]
    · rintro (hst | hst | hst) <;> simp only [Head.pauseAsked, hst]
    · simp only [Head.pauseAsked, hr]
  · exact exec_refused hs hlatch rfl ((resumeHead_eq a one s).trans (if_neg hno))
  · exact exec_refused hs hlatch rfl (by rw [resumeHead_eq, if_pos hhead, if_neg (by omega)])
  · have hno : ¬ h.state.resumes = true := by
      rcases hst with hst | hst | hst | hst <;> simp [hst, HeadState.resumes]
    exact exec_refused hs hlatch rfl (by rw [resumeHead_eq, if_pos hhead, if_pos hone, if_neg hno])
  · have htaken := resumeHead_eq a one s
    rw [if_pos hhead, if_pos hone, if_pos (HeadState.resumes_iff.mpr hst)] at htaken
    refine ⟨_, (h.resumed (one == 1)).state, exec_okay hs hlatch rfl htaken, rfl,
      fun b hb => (State.modHead_head s a b (Head.resumed · (one == 1))).trans (if_neg hb),
      State.modHead_self s a (Head.resumed · (one == 1)), fun hp => ?_, fun r hr => ?_⟩
    · simp only [Head.resumed, hp]
      cases h.reply <;> rfl
    · simp only [Head.resumed, hr]

/-! ## FLUSH_HEAD (R127, R115) -/

theorem HeadState.isPaused_iff {st : HeadState} : st.isPaused = true ↔ ∃ r, st = .paused r := by
  cases st <;> simp [HeadState.isPaused]

theorem flushHead_eq (a : Nat) (s : State) :
    flushHead a s =
      if 1 ≤ a ∧ a ≤ 14 ∧ (s.station a).kind = .stencil then
        if (s.head a).state.isPaused = true then
          okay (s.cancelJobs a fun _ => true) [byte (s.head a).queue.length]
        else refuse s .badState
      else refuse s .noSuch := by
  simp only [flushHead, checked_cons, checked_nil, State.isKind_eq_true, u1_eq]

/-- Settles O41: the checks in order, and the cancellation of the whole queue, whose length falls to 0. -/
theorem headIsFlushed : Obligations.HeadIsFlushed := by
  intro s a hs hlatch head q
  refine ⟨fun hno => ?_, fun hhead hst => ?_, fun r hhead hr hdistinct hmarks => ?_⟩
  · exact exec_refused hs hlatch rfl ((flushHead_eq a s).trans (if_neg hno))
  · have hno : ¬ (s.head a).state.isPaused = true := mt HeadState.isPaused_iff.mp (not_exists.mpr hst)
    exact exec_refused hs hlatch rfl (by rw [flushHead_eq, if_pos hhead, if_neg hno])
  · have hall : q.filter (fun _ => true) = q := List.filter_eq_self.mpr fun _ _ => rfl
    have hkept : q.filter (fun _ => !true) = [] := List.filter_eq_nil_iff.mpr fun _ _ => Bool.false_ne_true
    have hcancelled : ∀ j ∈ q, ∃ c, s.chest? j.chest = some c ∧ c.mark ≠ .marked := by
      intro j hj
      obtain ⟨c, hc, hm⟩ := hmarks j hj
      exact ⟨c, hc, by rcases hm with hm | hm <;> simp [hm]⟩
    obtain ⟨hframe, hheads, hchests, hlots, hnotices⟩ := s.cancelJobs_spec a (fun _ => true)
      (by rwa [hall]) (by rwa [hall])
    have htaken := flushHead_eq a s
    rw [if_pos hhead, if_pos (HeadState.isPaused_iff.mpr ⟨r, hr⟩)] at htaken
    rw [hkept] at hheads hnotices
    rw [hall] at hchests hlots
    generalize s.cancelJobs a (fun _ => true) = u at *
    refine ⟨_, exec_okay hs hlatch rfl htaken, by rw [hframe]; rfl, fun b => ?_, fun id _ => hchests id, hlots,
      fun k => ?_⟩
    · have hstays : ¬ ((s.head a).state = .ready ∧ ([] : List Job) = []) := fun h => by simp [hr] at h
      rw [State.setBuffer_head, hheads b, if_neg hstays]
    · rw [State.setBuffer_notice, hnotices k]
      simp [q]

/-! ## REPRINT (R128, R114) -/

theorem reprintChest_eq (p : ReprintParams) (s : State) :
    reprintChest p s =
      if p.chest ≤ 2047 then
        if 1 ≤ p.head ∧ p.head ≤ 14 ∧ (s.station p.head).kind = .stencil then
          if s.chestIs p.chest (fun c => c.place.isAccepted) = true then
            if (s.chestD p.chest).job = none then
              if (s.head p.head).queue.length < 16 then
                okay ((s.modChest p.chest fun c => { c with reprints := min (c.reprints + 1) 255 }).appendJob
                  p.head p.chest .reprint) [byte ((s.head p.head).queue.length + 1)]
              else refuse s .noRoom
            else refuse s .inFlight
          else refuse s .badState
        else refuse s .badValue
      else refuse s .noSuch := by
  simp only [reprintChest, checked_cons, checked_nil, State.isKind_eq_true, Chest.idleMark, Option.isNone_iff_eq_none,
    State.queueRoom_iff, Config.chestRecords, decide_eq_true_eq, Nat.lt_succ_iff, u1_eq]

/-- Settles O42: the checks in order, and the REPRINT job at the end of the head's queue. -/
theorem chestIsReprinted : Obligations.ChestIsReprinted := by
  intro s p hs hlatch head
  refine ⟨fun hid => ?_, fun hid hno => ?_, fun hid hhead hplace => ?_, fun c k n b hid hhead hc hp => ?_⟩
  · exact exec_refused hs hlatch rfl (by rw [reprintChest_eq, if_neg (by omega)])
  · exact exec_refused hs hlatch rfl (by rw [reprintChest_eq, if_pos hid, if_neg hno])
  · have hno : ¬ s.chestIs p.chest (fun c => c.place.isAccepted) = true := by
      rw [State.chestIs_iff]
      rintro ⟨c, hc, haccepted⟩
      obtain ⟨k, n, b, hp⟩ := Place.isAccepted_iff.mp haccepted
      exact hplace c k n b hc hp
    exact exec_refused hs hlatch rfl (by rw [reprintChest_eq, if_pos hid, if_pos hhead, if_neg hno])
  · have haccepted : s.chestIs p.chest (fun c => c.place.isAccepted) = true := by rw [State.chestIs_eq hc, hp]; rfl
    have hown := reprintChest_eq p s
    rw [if_pos hid, if_pos hhead, if_pos haccepted, State.chestD_eq hc] at hown
    refine ⟨fun hj => ?_, fun hj hfull => ?_, fun hj hroom => ?_⟩
    · exact exec_refused hs hlatch rfl (hown.trans (if_neg hj))
    · exact exec_refused hs hlatch rfl (hown.trans (by rw [if_pos hj, if_neg (by omega)]))
    · rw [if_pos hj, if_pos hroom] at hown
      have hcounted : (s.modChest p.chest fun c => { c with reprints := min (c.reprints + 1) 255 }).chest? p.chest =
          some { c with reprints := min (c.reprints + 1) 255 } := by rw [State.modChest_self, hc]; rfl
      refine ⟨_, exec_okay hs hlatch rfl hown, ?_, fun a => ?_, fun j hne => ?_, ?_, fun j => ?_⟩
      · rw [State.appendJob_eq]; rfl
      · rw [State.setBuffer_head, State.appendJob_head]
        split
        · next ha => rw [ha, State.modChest_head]
        · rfl
      · rw [State.setBuffer_chestOf, State.appendJob_chest?, if_neg hne, State.modChest_chest?, if_neg hne]
      · rw [State.setBuffer_chestOf, State.appendJob_chest?, if_pos rfl, hcounted, Option.map_some]
      · rw [State.setBuffer_lotOf, State.appendJob_lot? hcounted hp]
        split
        · next hk => rw [hk, State.modChest_lotOf]
        · rfl

end Sys2Proof.Machine
end

section
/-! PROOFS. The outcome of a mark (O51): the front job leaves its queue, its chest takes the mark status, its lot counts the
mark off and may complete; then the head turns and the notices are raised. -/

namespace Sys2Proof.Machine

/-! ## Notices of two updates (R167) -/

/-- Two updates that raise different kinds. -/
theorem State.raisesAs_or {s t u : State} {f g : NoticeKind → Option Nat} (first : s.raisesAs t f)
    (second : t.raisesAs u g) (hfg : ∀ j, f j = none ∨ g j = none) : s.raisesAs u fun j => (f j).or (g j) := by
  intro j
  rw [second j, first j]
  rcases hfg j with h | h
  · simp only [h, Option.none_or]
  · simp only [h, Option.or_none]

theorem State.raisesAs_raise (t : State) (k : NoticeKind) (x : Nat) :
    t.raisesAs (t.raise k (some x)) fun j => if j = k then some x else none := by
  refine State.raisesAs_if.mpr fun j => ?_
  rw [State.raise_notice]
  by_cases hj : j = k <;> simp [hj]

/-- The source of a queue notice of head `a` when the front job has left `rest` behind (R115). -/
def queueSource (a : Nat) (rest : List Job) (j : NoticeKind) : Option Nat :=
  if j = .queueEmpty ∧ rest = [] ∨ j = .queueLow ∧ rest.length = 3 then some a else none

theorem State.raisesAs_queueNotices (t : State) (a : Nat) (rest : List Job) :
    t.raisesAs (t.queueNotices a (rest.length + 1) rest.length) (queueSource a rest) := by
  refine State.raisesAs_if.mpr fun j => ?_
  have hempty : (1 ≤ rest.length + 1 ∧ rest.length = 0) ↔ rest = [] := by
    rw [List.length_eq_zero_iff, and_iff_right (by omega)]
  have hlow : (4 ≤ rest.length + 1 ∧ rest.length ≤ 3) ↔ rest.length = 3 := by omega
  simp only [State.queueNotices_notice, hempty, hlow]

/-! ## The lot's completion (R12) -/

theorem Table.mem_modify {α : Type} {m : Table α} {i : Nat} {v : α} (h : m.get? i = some v) (f : α → α)
    {e : Nat × α} : e ∈ m.modify i f ↔ e = (i, f v) ∨ e ∈ m ∧ e.1 ≠ i := by
  simp only [Table.modify, h, Table.put, Table.mem_insert, Table.erase, List.mem_filter, bne_iff_ne]

/-- Every accepted chest of lot `k` but the one of record `id` is MARKED. -/
def State.othersMarked (s : State) (k id : Nat) : Prop :=
  ∀ e ∈ s.chests, e.2.inLot k = true → e.1 ≠ id → e.2.mark = .marked

/-- A chest of the lot rewritten: it counts with its new mark status. -/
theorem State.allMarked_modChest {s : State} {id k : Nat} {c : Chest} (hc : s.chest? id = some c) {f : Chest → Chest}
    (hin : (f c).inLot k = true) :
    (s.modChest id f).allMarked k ↔ (f c).mark = .marked ∧ s.othersMarked k id := by
  have hmem (e : Nat × Chest) : e ∈ (s.modChest id f).chests ↔ e = (id, f c) ∨ e ∈ s.chests ∧ e.1 ≠ id :=
    Table.mem_modify hc f
  refine ⟨fun h => ⟨h _ ((hmem _).mpr (.inl rfl)) hin, fun e he hk hne => h e ((hmem e).mpr (.inr ⟨he, hne⟩)) hk⟩,
    fun ⟨hm, hothers⟩ e he hk => ?_⟩
  rcases (hmem e).mp he with rfl | ⟨he, hne⟩
  · exact hm
  · exact hothers e he hk hne

/-- The lot once one of its marks is settled, which completes it when `done` (R11, R12). -/
def Lot.markOff (l : Lot) (done : Bool) : Lot :=
  { l with outstanding := l.outstanding - 1, state := if done then .complete else l.state }

/-- The chest whose job has left its queue with a mark status (R37). -/
def Chest.settled (c : Chest) (m : MarkStatus) : Chest := { c with mark := m, job := none }

/-- The front job of head `a` has left with a mark status: from `s` to `t` the head becomes `w`, the chest of record `id`
becomes `c`, lot `k` becomes `l`, and each kind `j` with a source `f j` is raised (R11, R12, R120 to R122). -/
structure State.MarkLeaves (s t : State) (a : Nat) (w : Head) (id : Nat) (c : Chest) (k : Nat) (l : Lot)
    (f : NoticeKind → Option Nat) : Prop where
  frame : t = { s with heads := t.heads, chests := t.chests, lots := t.lots, notices := t.notices }
  head : ∀ b, t.head b = if b = a then w else s.head b
  chest : ∀ i, t.chest? i = if i = id then some c else s.chest? i
  lot : ∀ i, t.lot? i = if i = k then some l else s.lot? i
  notice : s.raisesAs t f

namespace State.MarkLeaves

variable {s t u : State} {a id k : Nat} {w : Head} {c : Chest} {l : Lot} {f g : NoticeKind → Option Nat}
  (h : s.MarkLeaves t a w id c k l f)
include h

theorem modHead (e : Head → Head) : s.MarkLeaves (t.modHead a e) a (e w) id c k l f where
  frame := by rw [h.frame]; rfl
  head b := by
    rw [State.modHead_head, h.head, h.head, if_pos rfl]
    split <;> rfl
  chest := h.chest
  lot := h.lot
  notice := h.notice

theorem notices (hu : u = { t with notices := u.notices }) (hn : t.raisesAs u g) (hfg : ∀ j, f j = none ∨ g j = none) :
    s.MarkLeaves u a w id c k l fun j => (f j).or (g j) where
  frame := by rw [hu, h.frame]
  head b := by rw [hu]; exact h.head b
  chest i := by rw [hu]; exact h.chest i
  lot i := by rw [hu]; exact h.lot i
  notice := State.raisesAs_or h.notice hn hfg

/-- The kinds raised, said another way. -/
theorem congr (hg : ∀ j, f j = g j) : s.MarkLeaves t a w id c k l g := funext hg ▸ h

theorem raise (kind : NoticeKind) (x : Nat) (hf : f kind = none) :
    s.MarkLeaves (t.raise kind (some x)) a w id c k l fun j => (f j).or (if j = kind then some x else none) := by
  refine h.notices rfl (t.raisesAs_raise kind x) fun j => ?_
  by_cases hj : j = kind
  · exact .inl (hj ▸ hf)
  · exact .inr (if_neg hj)

theorem raiseIf (p : Prop) [Decidable p] (kind : NoticeKind) (x : Nat) (hf : f kind = none) :
    s.MarkLeaves (if p then t.raise kind (some x) else t) a w id c k l
      fun j => (f j).or (if j = kind ∧ p then some x else none) := by
  by_cases hp : p
  · rw [if_pos hp]
    exact (h.raise kind x hf).congr fun j => by simp [hp]
  · rw [if_neg hp]
    exact h.congr fun j => by simp [hp]

theorem queueNotices (rest : List Job) (hempty : f .queueEmpty = none) (hlow : f .queueLow = none) :
    s.MarkLeaves (t.queueNotices a (rest.length + 1) rest.length) a w id c k l
      fun j => (f j).or (queueSource a rest j) := by
  refine h.notices (State.queueNotices_eq ..) (t.raisesAs_queueNotices a rest) fun j => ?_
  by_cases hj : j = .queueEmpty ∨ j = .queueLow
  · exact .inl (by rcases hj with rfl | rfl; exacts [hempty, hlow])
  · exact .inr (if_neg (by tauto))

end State.MarkLeaves

/-- The lot's completion is judged once it has counted the mark off. -/
theorem State.MarkLeaves.evalComplete {s t : State} {a id k : Nat} {w : Head} {c : Chest} {l : Lot} {done : Bool}
    (h : s.MarkLeaves t a w id c k (l.markOff false) fun _ => none)
    (hdone : done = true ↔ l.state = .finishing ∧ l.outstanding ≤ 1 ∧ t.allMarked k) :
    s.MarkLeaves (t.evalComplete k) a w id c k (l.markOff done)
      fun i => if i = .lotComplete ∧ done = true then some k else none := by
  have hl : t.lot? k = some (l.markOff false) := (h.lot k).trans (if_pos rfl)
  have hcompletes : done = true ↔ l.state = .finishing ∧ l.outstanding - 1 = 0 ∧ t.allMarked k := by
    rw [hdone, Nat.sub_eq_zero_iff_le]
  obtain ⟨hyes, hno⟩ := State.evalComplete_some hl
  cases done with
  | false =>
    rw [hno fun hall => Bool.false_ne_true (hcompletes.mpr hall)]
    exact h.congr fun j => (if_neg fun hj => Bool.false_ne_true hj.2).symm
  | true =>
    rw [hyes (hcompletes.mp rfl)]
    exact
      { frame := by rw [h.frame]; rfl
        head := h.head
        chest := h.chest
        lot := fun i => by
          rw [State.raise_lotOf, State.modLot_lot?, hl, h.lot]
          split <;> rfl
        notice := State.raisesAs_if.mpr fun j => by
          rw [State.raise_notice, State.modLot_notice, State.modLot_notice, h.notice, h.notice]
          by_cases hj : j = .lotComplete <;> simp [hj] }

/-! ## The head after a DONE (R120) -/

/-- The head pauses once its mark is DONE: it was to pause, or marks one chest at a time (R120). -/
def Head.pauses (h : Head) : Bool := h.state == .pausePending || h.oneMark

theorem Head.pauses_iff {h : Head} : h.pauses = true ↔ h.state = .pausePending ∨ h.oneMark = true := by
  simp [Head.pauses]

theorem Head.marked_eq (h : Head) (x : Nat) : h.marked x = { h with
    message := none
    reply := none
    interval := some x
    oneMark := false
    state := if h.pauses then .paused .host else if h.queue = [] then .idle else .ready } := by
  simp only [Head.marked, ← Head.pauses_iff]
  by_cases hp : h.pauses = true
  · simp only [hp, if_true]
  · have hone : h.oneMark = false := Bool.eq_false_iff.mpr fun h1 => hp (Head.pauses_iff.mpr (.inr h1))
    simp only [hp, hone, Bool.false_eq_true, if_false]

/-! ## The front job leaves, and the head turns (R120 to R122) -/

section Front

variable {s : State} {a k serial bulk : Nat} {j : Job} {rest : List Job} {c : Chest} {l : Lot}
  (hq : (s.head a).queue = j :: rest) (hc : s.chest? j.chest = some c) (hp : c.place = .accepted k serial bulk)
include hq hc hp

theorem State.frontSerial_eq : s.frontSerial a = serial := by
  simp only [State.frontSerial, hq, State.chestD_eq hc, hp]

theorem State.frontLeaves_eq (m : MarkStatus) : s.frontLeaves a m =
    (((s.modHead a fun h => { h with queue := rest }).modChest j.chest (Chest.settled · m)).modLot k
      (Lot.markOff · false)).evalComplete k := by
  have hplace : (((s.modHead a fun h => { h with queue := rest }).modChest j.chest (Chest.settled · m)).chestD
      j.chest).place = .accepted k serial bulk := by
    rw [State.chestD_eq (c := c.settled m) (by rw [State.modChest_self, State.modHead_chestOf, hc]; rfl)]
    exact hp
  unfold Chest.settled at hplace
  simp only [State.frontLeaves, hq, State.settleMark, hplace]
  rfl

/-- The front job leaves; a DONE at the last outstanding mark of a FINISHING lot completes it. -/
theorem State.frontLeaves_leaves (hl : s.lot? k = some l) {m : MarkStatus} {done : Bool}
    (hdone : done = true ↔ m = .marked ∧ l.state = .finishing ∧ l.outstanding ≤ 1 ∧ s.othersMarked k j.chest) :
    s.MarkLeaves (s.frontLeaves a m) a { s.head a with queue := rest } j.chest (c.settled m) k (l.markOff done)
      fun i => if i = .lotComplete ∧ done = true then some k else none := by
  rw [State.frontLeaves_eq hq hc hp]
  have hin : (c.settled m).inLot k = true := by simp [Chest.inLot, Chest.settled, hp]
  have hmarked := State.allMarked_modChest (s := s.modHead a fun h => { h with queue := rest })
    (f := (Chest.settled · m)) hc hin
  refine .evalComplete ?_ (hdone.trans ?_)
  · refine ⟨rfl, fun b => ?_, fun i => ?_, fun i => ?_, fun i => ?_⟩
    · rw [State.modLot_head, State.modChest_head, State.modHead_head]
    · rw [State.modLot_chestOf, State.modChest_chest?, State.modHead_chestOf, State.modHead_chestOf, hc]; rfl
    · rw [State.modLot_lot?, State.modChest_lotOf, State.modChest_lotOf, State.modHead_lotOf, State.modHead_lotOf, hl]; rfl
    · rw [State.modLot_notice, State.modChest_notice, State.modHead_notice]
  · refine Iff.trans ?_ (and_congr_right' (and_congr_right' hmarked.symm))
    exact and_left_comm.trans (and_congr_right' and_left_comm)

/-- A DONE settled: the chest is MARKED, the lot may complete, and the head's next state follows (R120). -/
theorem State.markDone_leaves (hl : s.lot? k = some l) {done : Bool}
    (hdone : done = true ↔ l.state = .finishing ∧ l.outstanding ≤ 1 ∧ s.othersMarked k j.chest) :
    s.MarkLeaves (s.markDone a) a (Head.marked { s.head a with queue := rest } (s.station a).markMs) j.chest
      (c.settled .marked) k (l.markOff done) fun i =>
        if i = .lotComplete ∧ done = true then some k
        else if i = .headPaused ∧ (s.head a).pauses = true then some a else queueSource a rest i := by
  have hleaves := State.frontLeaves_leaves hq hc hp hl (m := .marked) (hdone.trans (and_iff_right rfl).symm)
  have hturns := ((hleaves.modHead (Head.marked · (s.station a).markMs)).raiseIf ((s.head a).pauses = true) .headPaused a
    rfl).queueNotices rest rfl rfl
  simp only [State.markDone, hq, ← Head.pauses_iff]
  refine hturns.congr fun i => ?_
  by_cases h1 : i = .lotComplete ∧ done = true
  · simp [h1]
  · by_cases h2 : i = .headPaused ∧ (s.head a).pauses = true <;> simp [h1, h2]

/-- A FAULT or a timeout settled: no lot completes, and the head is PAUSED (R121, R122). -/
theorem State.markFault_leaves (hl : s.lot? k = some l) {m : MarkStatus} (hm : m ≠ .marked) (code : FaultCode) :
    s.MarkLeaves (s.markFault a m code) a (Head.faulted { s.head a with queue := rest } code) j.chest
      (c.settled m) k (l.markOff false) fun i => if i = .headPaused then some a else queueSource a rest i := by
  have hleaves := State.frontLeaves_leaves hq hc hp hl (m := m) (done := false)
    (iff_of_false Bool.false_ne_true fun hall => hm hall.1)
  have hturns := ((hleaves.modHead (Head.faulted · code)).raise .headPaused a rfl).queueNotices rest rfl rfl
  simp only [State.markFault, hq]
  refine hturns.congr fun i => ?_
  by_cases hi : i = .headPaused <;> simp [hi]

end Front

/-! ## Replies and the timeout -/

theorem Head.awaiting_iff {h : Head} :
    h.awaiting = true ↔ (h.state = .printing ∨ h.state = .pausePending) ∧ h.reply ≠ none := by
  simp [Head.awaiting, Option.isSome_iff_ne_none]

theorem exec_replyDone {s : State} {a : Nat} (hs : s.part = .running) (h1 : 1 ≤ a) (h14 : a ≤ 14)
    (hslot : (s.station a).slot = some .replyDone) :
    exec (.replyDone a) s = .next (s.takeReply a (s.markDone a)) :=
  congrArg Host.Outcome.next (takeFrom_taken hs h1 h14 hslot rfl)

theorem exec_replyFault {s : State} {a : Nat} {f : FaultCode} (hs : s.part = .running) (h1 : 1 ≤ a) (h14 : a ≤ 14)
    (hslot : (s.station a).slot = some (.replyFault f)) :
    exec (.replyFault a) s = .next (s.takeReply a (s.markFault a .unmarked f)) :=
  congrArg Host.Outcome.next (takeFrom_taken hs h1 h14 hslot rfl)

theorem exec_markTimeout {s : State} {a : Nat} (hs : s.part = .running) (h1 : 1 ≤ a) (h14 : a ≤ 14)
    (hawaits : (s.head a).awaiting = true) (hreply : (s.head a).reply = some 0) :
    exec (.markTimeout a) s = .next ((s.markFault a .uncertain .other).raise .markUncertain (some a)) :=
  congrArg Host.Outcome.next (atStation_enabled (by simp [hs]) h1 h14 (by simp [hawaits, hreply]))

/-- The reply taken once its mark has left: the call is answered with the chest's serial (R123). -/
theorem State.MarkLeaves.answered {s u : State} {a id k serial : Nat} {w : Head} {c : Chest} {l : Lot}
    {f : NoticeKind → Option Nat} (h : s.MarkLeaves u a w id c k l f) (hj : (s.station a).join = .active) :
    let t := u.answerCall a .markTaken serial
    t = { s with
      stations := t.stations
      waits := t.waits
      heads := t.heads
      chests := t.chests
      lots := t.lots
      notices := t.notices } ∧
    s.answersCall t a (.answer .markTaken serial) ∧ (∀ i, t.chest? i = if i = id then some c else s.chest? i) ∧
    (∀ i, t.lot? i = if i = k then some l else s.lot? i) ∧ (∀ b, t.head b = if b = a then w else s.head b) ∧
    s.raisesAs t f := by
  have hstation (b : Nat) : u.station b = s.station b := by rw [h.frame]; rfl
  have hwait (b : Nat) : u.wait b = s.wait b := by rw [h.frame]; rfl
  refine ⟨?_, ?_, fun i => ?_, fun i => ?_, fun b => ?_, fun i => ?_⟩
  · rw [u.answerCall_eq, h.frame]
  · exact State.answersCall_congr (State.answersOnly ((congrArg _ (hstation a)).trans hj) rfl).2 hstation hwait
      (fun _ => rfl) fun _ => rfl
  · rw [State.answerCall_chestOf, h.chest]
  · rw [State.answerCall_lotOf, h.lot]
  · rw [State.answerCall_head, h.head]
  · rw [State.answerCall_notice, h.notice]

/-- Settles O51: a reply that none awaits, and each outcome of the front job with the head, the chest and the lot that it
leaves. -/
theorem markOutcomeIsSettled : Obligations.MarkOutcomeIsSettled := by
  intro s a hs h1 h14 h awaited only
  refine ⟨fun f hj => ⟨fun hno hslot => ?_, fun hno hslot => ?_⟩, fun j rest c k serial bulk l haw hq hc hp hl => ?_⟩
  · exact ⟨_, exec_replyDone hs h1 h14 hslot, State.answersOnly hj (if_neg (mt Head.awaiting_iff.mp hno))⟩
  · exact ⟨_, exec_replyFault hs h1 h14 hslot, State.answersOnly hj (if_neg (mt Head.awaiting_iff.mp hno))⟩
  · intro pauses completes
    have hawaits : (s.head a).awaiting = true := Head.awaiting_iff.mpr haw
    have htaken (u : State) : s.takeReply a u = u.answerCall a .markTaken serial := by
      rw [State.takeReply, if_pos hawaits, State.frontSerial_eq hq hc hp]
    refine ⟨fun hj hslot => ?_, fun f hj hslot => ?_, fun hreply => ?_⟩
    · have hdone : completes = true ↔ _ := decide_eq_true_iff
      have hleaves := State.markDone_leaves hq hc hp hl hdone
      rw [Head.marked_eq] at hleaves
      exact ⟨_, (exec_replyDone hs h1 h14 hslot).trans (congrArg _ (htaken _)), hleaves.answered hj⟩
    · have hleaves := State.markFault_leaves hq hc hp hl (m := .unmarked) (by decide) f
      exact ⟨_, (exec_replyFault hs h1 h14 hslot).trans (congrArg _ (htaken _)), hleaves.answered hj⟩
    · have hleaves := ((State.markFault_leaves hq hc hp hl (m := .uncertain) (by decide) .other).raise
        .markUncertain a rfl).congr
        (g := fun i => if i = .headPaused ∨ i = .markUncertain then some a else queueSource a rest i) fun i => by
          by_cases hi : i = .markUncertain
          · subst hi; rfl
          · simp [hi]
      exact ⟨_, exec_markTimeout hs h1 h14 hawaits hreply, hleaves.frame, hleaves.chest, hleaves.lot, hleaves.head,
        hleaves.notice⟩

end Sys2Proof.Machine
end

section
/-! PROOFS. The expiries of the timers and counts (O45): the timers of the heads and of the verification records, the
suspension of a scale with its lane, and the last cycle of a window, an inhibit or a refusal. -/

namespace Sys2Proof.Machine

/-! ## The timers of heads and verification records (R119, R135, R136) -/

section Timers

variable {s : State} {a : Nat} (hp : s.part ≠ .retain) (h1 : 1 ≤ a) (h14 : a ≤ 14)
include hp h1 h14

theorem exec_intervalExpiry (h : (s.head a).interval = some 0) :
    exec (.intervalExpiry a) s = .next (s.modHead a fun h => { h with interval := none }) :=
  congrArg Host.Outcome.next (atStation_enabled hp h1 h14 (beq_iff_eq.mpr h))

theorem exec_periodExpiry (h : (s.verification a).state = .at (.verified 0)) :
    exec (.periodExpiry a) s =
      .next ((s.setVerification a (s.verification a).periodOver).raise .verifyDue (some a)) :=
  congrArg Host.Outcome.next (atStation_enabled hp h1 h14 (beq_iff_eq.mpr h))

theorem exec_graceExpiry (h : (s.verification a).state = .at (.due (.running 0))) :
    exec (.graceExpiry a) s = .next (s.graceOver a) :=
  congrArg Host.Outcome.next (atStation_enabled hp h1 h14 (beq_iff_eq.mpr h))

end Timers

theorem State.graceOver_warn {s : State} {a : Nat} (h : (s.verification a).action = .warn) :
    s.graceOver a = s.setVerification a { s.verification a with state := .at (.due .expired) } := by
  simp only [State.graceOver, h]

/-! ## The suspension of a scale (R136, R109, R80) -/

/-- Scale `a` is SUSPENDED, with its notice and the wait of its call ended, its lane not yet reached (R136, R109). -/
def State.suspended (s : State) (a : Nat) : State :=
  ((s.setVerification a { s.verification a with state := .at .suspended }).raise .scaleSuspended (some a)).setWait a .none

/-- The hold cause SCALE_SUSPENDED reaches lane `n` (R80). -/
def State.suspendLane (s : State) (n : Nat) : State := (s.holdCause n .scaleSuspended true).settleLane n

theorem State.graceOver_suspend {s : State} {a : Nat} (h : (s.verification a).action = .suspend) :
    s.graceOver a = (s.laneOf a).elim (s.suspended a) fun e => (s.suspended a).suspendLane e.1 := by
  unfold State.graceOver
  dsimp only
  split
  · next hw => exact absurd (h.symm.trans hw) (by decide)
  · cases s.laneOf a <;> rfl

theorem State.suspended_eq (s : State) (a : Nat) : s.suspended a = { s with
    verifications := (s.suspended a).verifications
    notices := (s.suspended a).notices
    waits := (s.suspended a).waits } := rfl

theorem State.suspended_raises (s : State) (a : Nat) :
    s.raisesAs (s.suspended a) fun j => if j = .scaleSuspended then some a else none :=
  (s.setVerification a _).raisesAs_raise .scaleSuspended a

theorem State.suspended_verification (s : State) (a b : Nat) : (s.suspended a).verification b =
    if b = a then { s.verification a with state := .at .suspended } else s.verification b := by
  rw [State.suspended, State.setWait_verification, State.raise_verification, State.setVerification_verification]

theorem State.suspended_laneOf (s : State) (a n : Nat) : (s.suspended a).lane? n = s.lane? n := by
  rw [State.suspended, State.setWait_laneOf, State.raise_laneOf, State.setVerification_laneOf]

theorem State.laneBecomes_of_suspended {s t : State} {a n : Nat} {l : Lane} (h : (s.suspended a).laneBecomes t n l) :
    s.laneBecomes t n l := fun m => (h m).trans (by rw [State.suspended_laneOf])

theorem State.suspended_wait (s : State) (a b : Nat) :
    (s.suspended a).wait b = if b = a then .none else s.wait b := by
  rw [State.suspended, State.setWait_wait, State.raise_wait, State.setVerification_wait]

/-- What a hold cause can change. -/
theorem State.holdCause_eq (s : State) (n : Nat) (r : LaneHold) (auto : Bool) :
    s.holdCause n r auto =
      { s with lanes := (s.holdCause n r auto).lanes, notices := (s.holdCause n r auto).notices } := by
  unfold State.holdCause
  cases s.lane? n with
  | none => rfl
  | some l =>
    dsimp only
    split
    · split
      · rfl
      · split <;> rfl
    · rfl

theorem State.suspendLane_eq (s : State) (n : Nat) :
    s.suspendLane n = { s with lanes := (s.suspendLane n).lanes, notices := (s.suspendLane n).notices } := by
  have hcause := s.holdCause_eq n .scaleSuspended true
  have hsettle := (s.holdCause n .scaleSuspended true).settleLane_eq n
  unfold State.suspendLane
  generalize (s.holdCause n .scaleSuspended true).settleLane n = t at *
  rw [hsettle, hcause]

section Lane

variable {s : State} {n : Nat} {l : Lane} (hl : s.lane? n = some l)
include hl

theorem State.holdCause_of_stopped (h : l.state ≠ .running) (r : LaneHold) (auto : Bool) : s.holdCause n r auto = s := by
  unfold State.holdCause
  rw [hl]
  exact if_neg h

/-- A HELD lane, and a HOLD_PENDING one that holds a tentative chest, is left as it is. -/
theorem State.suspendLane_stopped
    (h : (∃ r, l.state = .held r) ∨ (∃ r, l.state = .holdPending r) ∧ l.tentative ≠ none) : s.suspendLane n = s := by
  have hstopped : l.state ≠ .running := by
    rcases h with ⟨r, hr⟩ | ⟨⟨r, hr⟩, -⟩ <;> simp [hr]
  have hbusy : l.tentative ≠ none ∨ ∀ r, l.state ≠ .holdPending r := by
    rcases h with ⟨r, hr⟩ | ⟨-, ht⟩
    · exact .inr (by simp [hr])
    · exact .inl ht
  rw [State.suspendLane, State.holdCause_of_stopped hl hstopped, State.settleLane_of_busy hl hbusy]

/-- A RUNNING lane that holds a tentative chest becomes HOLD_PENDING without a notice. -/
theorem State.suspendLane_pending (hrun : l.state = .running) (ht : l.tentative ≠ none) :
    s.suspendLane n = { s with lanes := (s.suspendLane n).lanes } ∧
      s.laneBecomes (s.suspendLane n) n { l with state := .holdPending .scaleSuspended, oneShot := false } := by
  obtain ⟨hframe, hlane⟩ := State.holdCause_busy hl (State.workInFlight_iff.mpr (.inl ht)) .scaleSuspended true
  rw [if_pos hrun] at hlane
  have hsettle : s.suspendLane n = s.holdCause n .scaleSuspended true :=
    State.settleLane_of_busy ((hlane n).trans (if_pos rfl)) (.inl ht)
  rw [hsettle]
  exact ⟨hframe, hlane⟩

end Lane

/-- The lane of a SUSPENDED scale without a tentative chest: a RUNNING one is held by the suspension, a pending hold ends
with its own reason (R80). -/
theorem Lane.stopped_turns {l w : Lane} {r : LaneHold} (ht : l.tentative = none)
    (h : l.state = .running ∧ w = { l with state := .held r, oneShot := false } ∨
      ∃ q, l.state = .holdPending q ∧ w = { l with state := .held q }) : l.stopped r = w ∧ w.state ≠ l.state := by
  obtain ⟨state, target, scale, mode, cls, pending, watch, oneShot, tentative⟩ := l
  obtain rfl : tentative = none := ht
  rcases h with ⟨hst, rfl⟩ | ⟨q, hst, rfl⟩
  · obtain rfl : state = .running := hst
    exact ⟨rfl, nofun⟩
  · obtain rfl : state = .holdPending q := hst
    exact ⟨rfl, nofun⟩

section Suspended

variable {s : State} {a n : Nat} {l : Lane}

/-- What a suspension changes beside the lanes and the notices: the record and the wait of the scale. -/
theorem State.graceOver_frame (hact : (s.verification a).action = .suspend) :
    let t := s.graceOver a
    t = { s with verifications := t.verifications, notices := t.notices, lanes := t.lanes, waits := t.waits } ∧
      (∀ b, t.verification b = if b = a then { s.verification a with state := .at .suspended } else s.verification b) ∧
      ∀ b, t.wait b = if b = a then .none else s.wait b := by
  have hframe : s.graceOver a =
      { s.suspended a with lanes := (s.graceOver a).lanes, notices := (s.graceOver a).notices } := by
    rw [State.graceOver_suspend hact]
    cases s.laneOf a with
    | none => rfl
    | some e => exact (s.suspended a).suspendLane_eq e.1
  have hverification (b : Nat) : (s.graceOver a).verification b = (s.suspended a).verification b := by rw [hframe]; rfl
  have hwait (b : Nat) : (s.graceOver a).wait b = (s.suspended a).wait b := by rw [hframe]; rfl
  refine ⟨?_, fun b => (hverification b).trans (s.suspended_verification a b),
    fun b => (hwait b).trans (s.suspended_wait a b)⟩
  have hsuspended := s.suspended_eq a
  generalize s.graceOver a = t at *
  generalize s.suspended a = u at *
  rw [hframe, hsuspended]

/-- No lane names the scale, or its lane is stopped already. -/
theorem State.graceOver_stopped (hact : (s.verification a).action = .suspend)
    (h : s.laneOf a = none ∨ ∃ n l, s.serves n l a ∧
      ((∃ r, l.state = .held r) ∨ (∃ r, l.state = .holdPending r) ∧ l.tentative ≠ none)) :
    s.graceOver a = s.suspended a := by
  rw [State.graceOver_suspend hact]
  rcases h with hnone | ⟨n, l, ⟨hl, hof⟩, hstopped⟩
  · rw [hnone]; rfl
  · rw [hof, Option.elim_some]
    exact State.suspendLane_stopped ((s.suspended_laneOf a n).trans hl) hstopped

theorem State.graceOver_served (hact : (s.verification a).action = .suspend) (h : s.serves n l a) :
    s.graceOver a = (s.suspended a).suspendLane n := by
  rw [State.graceOver_suspend hact, h.2, Option.elim_some]

/-- The wait of the scale's call has ended, so its lane is idle without a tentative chest. -/
theorem State.suspended_idle (h : s.serves n l a) (ht : l.tentative = none) : (s.suspended a).idle l :=
  ⟨ht, by rw [State.serves_scale h]; exact (s.suspended_wait a a).trans (if_pos rfl)⟩

/-- A RUNNING lane that holds a tentative chest: the hold is pending, without LANE_HELD. -/
theorem State.graceOver_pending (hact : (s.verification a).action = .suspend) (h : s.serves n l a)
    (hrun : l.state = .running) (ht : l.tentative ≠ none) :
    s.laneBecomes (s.graceOver a) n { l with state := .holdPending .scaleSuspended, oneShot := false } ∧
      s.raisesAs (s.graceOver a) fun j => if j = .scaleSuspended then some a else none := by
  obtain ⟨hframe, hlane⟩ := State.suspendLane_pending ((s.suspended_laneOf a n).trans h.1) hrun ht
  have hnotice (j : NoticeKind) : ((s.suspended a).suspendLane n).notice j = (s.suspended a).notice j := by
    rw [hframe]; rfl
  rw [State.graceOver_served hact h]
  exact ⟨State.laneBecomes_of_suspended hlane, fun j => (hnotice j).trans (s.suspended_raises a j)⟩

/-- A lane that the suspension turns HELD, with LANE_HELD. -/
theorem State.graceOver_held {w : Lane} (hact : (s.verification a).action = .suspend) (h : s.serves n l a)
    (ht : l.tentative = none)
    (hturn : l.state = .running ∧ w = { l with state := .held .scaleSuspended, oneShot := false } ∨
      ∃ r, l.state = .holdPending r ∧ w = { l with state := .held r }) :
    s.laneBecomes (s.graceOver a) n w ∧ s.raisesAs (s.graceOver a) fun j =>
      if j = .scaleSuspended then some a else if j = .laneHeld then some n else none := by
  obtain ⟨hstopped, hchanges⟩ := Lane.stopped_turns ht hturn
  have turned := State.stop_turns ((s.suspended_laneOf a n).trans h.1) (State.suspended_idle h ht) .scaleSuspended
  rw [hstopped] at turned
  have hheld : (s.suspended a).raisesAs ((s.suspended a).suspendLane n) fun j => if j = .laneHeld then some n else none :=
    State.raisesAs_if.mpr fun j => (turned.notice j).trans (by simp only [hchanges, ne_eq, not_false_eq_true, and_true])
  have hboth := State.raisesAs_or (s.suspended_raises a) hheld fun j => by
    by_cases hj : j = .laneHeld <;> simp [hj]
  rw [State.graceOver_served hact h]
  refine ⟨State.laneBecomes_of_suspended turned.lane, fun j => (hboth j).trans ?_⟩
  by_cases hj : j = .scaleSuspended <;> simp only [hj, if_true, if_false, Option.some_or, Option.none_or]

end Suspended

/-! ## The last cycle of a window, an inhibit or a refusal (R147, R149, R150) -/

theorem Station.windowEnds_last {u : Station} {w : Nat} (hopen : u.slotOpen = true) (hj : u.join = .announcing w)
    (hw : 249 ≤ w) : u.windowEnds = true := by
  simp [Station.windowEnds, hopen, hj, Config.windowCycles, hw]

theorem Station.inhibitEnds_last {u : Station} {i : Nat} (hopen : u.slotOpen = true) (hj : u.join = .lost i)
    (hi : 499 ≤ i) : u.inhibitEnds = true := by
  simp [Station.inhibitEnds, hopen, hj, Config.inhibitCycles, hi]

theorem Station.refusalEnds_last {u : Station} (hopen : u.slotOpen = true) (hj : u.join = .refused)
    (hs : 499 ≤ u.silence) : u.refusalEnds = true := by
  simp [Station.refusalEnds, hopen, hj, Config.silenceTop, hs]

theorem Station.silent_announcing {u : Station} {w : Nat} (hj : u.join = .announcing w) (hw : 249 ≤ w) :
    u.silent = { u with join := .absent, pages := none, silence := min (u.silence + 1) 500, slotOpen := false } := by
  simp only [Station.silent_eq_afterSilence, Station.afterSilence, Station.afterCycle, hj, if_neg (Nat.not_lt.mpr hw)]

theorem Station.silent_lost {u : Station} {i : Nat} (hj : u.join = .lost i) (hi : 499 ≤ i) :
    u.silent = { u with join := .absent, silence := 0, slotOpen := false } := by
  simp only [Station.silent_eq_afterSilence, Station.afterSilence, Station.afterCycle, hj, if_neg (Nat.not_lt.mpr hi)]

theorem Station.silent_refused {u : Station} (hj : u.join = .refused) (hs : 499 ≤ u.silence) :
    u.silent = { u with join := .absent, silence := 0, answers := [], slotOpen := false } := by
  have htop : ¬ min (u.silence + 1) 500 < 500 := by omega
  simp only [Station.silent_eq_afterSilence, Station.afterSilence, Station.afterCycle, hj, if_neg htop]

/-- An expiry whose station's slot passes silent changes that station alone. -/
theorem State.silent_links {s : State} {a : Nat} {e : Instr} {w : Station}
    (he : exec e s = .next (s.modStation a Station.silent)) (hw : (s.station a).silent = w) :
    ∃ t, exec e s = .next t ∧ t = { s with stations := t.stations } ∧
      ∀ b, t.station b = if b = a then w else s.station b :=
  ⟨_, he, rfl, fun b => by rw [State.modStation_station, hw]⟩

/-- Settles O45, timer by timer. -/
theorem timersExpire : Obligations.TimersExpire := by
  intro s a hp h1 h14 v u verified linked
  refine ⟨fun hi => ?_, fun hv => ?_, fun hv hact => ?_, fun hv hact => ?_, fun w hopen hj hw => ?_,
    fun i hopen hj hi => ?_, fun hopen hj hs => ?_⟩
  · exact ⟨_, exec_intervalExpiry hp h1 h14 hi, rfl, fun b => State.modHead_head s a b _⟩
  · refine ⟨_, exec_periodExpiry hp h1 h14 hv, rfl, fun b => ?_,
      (s.setVerification a v.periodOver).raisesAs_raise .verifyDue a⟩
    rw [State.raise_verification, State.setVerification_verification]
    rfl
  · refine ⟨_, (exec_graceExpiry hp h1 h14 hv).trans (congrArg _ (State.graceOver_warn hact)), rfl, fun b => ?_⟩
    exact State.setVerification_verification s a b _
  · obtain ⟨hframe, hverified, hwait⟩ := State.graceOver_frame hact
    refine ⟨_, exec_graceExpiry hp h1 h14 hv, hframe, hverified, hwait, fun hstopped => ?_, fun n l hserves =>
      ⟨fun hrun ht => ?_, fun w ht hturn => ?_⟩⟩
    · rw [State.graceOver_stopped hact hstopped]
      exact ⟨rfl, s.suspended_raises a⟩
    · exact State.graceOver_pending hact hserves hrun ht
    · exact State.graceOver_held hact hserves ht hturn
  · exact State.silent_links (congrArg Host.Outcome.next (atStation_enabled hp h1 h14
      (Station.windowEnds_last hopen hj hw))) (Station.silent_announcing hj hw)
  · exact State.silent_links (congrArg Host.Outcome.next (atStation_enabled hp h1 h14
      (Station.inhibitEnds_last hopen hj hi))) (Station.silent_lost hj hi)
  · exact State.silent_links (congrArg Host.Outcome.next (atStation_enabled hp h1 h14
      (Station.refusalEnds_last hopen hj hs))) (Station.silent_refused hj hs)

end Sys2Proof.Machine
end

section
/-! PROOFS. Scale verification (O43, O44): the settings that SET_VERIFY writes, the test that VERIFY_SCALE orders and
that CANCEL_VERIFY withdraws, and the comparison of a test reading. -/

namespace Sys2Proof.Machine

/-! ## SET_VERIFY (R134) -/

/-- The record with the settings of SET_VERIFY, its timer clamped to them (R134). -/
def Verification.configured (v : Verification) (p : SetVerifyParams) : Verification :=
  { v with
    period := p.period
    grace := p.grace
    action := if p.action = 0 then .warn else .suspend
    tolerance := p.tolerance
    state := v.state.clamp p.period p.grace }

/-- The data of SET_VERIFY's answer: the state's code and the two timers (assumptions 8 and 19). -/
def VerifyState.timersData (v : VerifyState) : List Byte :=
  u1 v.code ++ optional 4 v.periodTimer ++ optional 4 (v.graceTimer.map Grace.ms)

theorem setVerify_eq (p : SetVerifyParams) (s : State) :
    setVerify p s =
      if 1 ≤ p.station ∧ p.station ≤ 14 ∧ (s.station p.station).kind = .scale then
        if 10 ≤ p.period ∧ p.period ≤ 1440 ∧ p.grace ≤ 240 ∧ p.action ≤ 1 ∧ p.tolerance ≤ 1000 then
          okay (s.setVerification p.station ((s.verification p.station).configured p))
            ((s.verification p.station).configured p).state.timersData
        else refuse s .badValue
      else refuse s .noSuch := by
  simp only [setVerify, checked_cons, checked_nil, State.isKind_eq_true, Bool.and_eq_true,
    decide_eq_true_eq, and_assoc, Verification.configured, VerifyState.timersData]

/-- An optional figure: its presence byte, and the figure or zero. -/
theorem optional_eq (n : Nat) (o : Option Nat) : optional n o = bit o.isSome :: be n (o.getD 0) := by
  cases o <;> rfl

theorem VerifyState.timersData_eq (v : VerifyState) :
    v.timersData = [byte v.code, bit v.periodTimer.isSome] ++ be 4 (v.periodTimer.getD 0) ++
      [bit v.graceTimer.isSome] ++ be 4 ((v.graceTimer.map Grace.ms).getD 0) := by
  simp [VerifyState.timersData, u1_eq, optional_eq]

/-! ## VERIFY_SCALE (R137) -/

theorem VerifyState.isTesting_iff {v : VerifyState} : v.isTesting = true ↔ ∃ p m b, v = .testing p m b := by
  cases v <;> simp [VerifyState.isTesting]

/-- Scale `a` is free for a test: it is not TESTING, and every lane that names it is HELD (R137). -/
def State.freeForTest (s : State) (a : Nat) : Bool :=
  !(s.verification a).state.isTesting && s.lanes.all (fun e => e.2.scale != a || e.2.state.isHeld)

theorem State.freeForTest_iff {s : State} {a : Nat} : s.freeForTest a = true ↔
    (∀ p m b, (s.verification a).state ≠ .testing p m b) ∧
      ∀ e ∈ s.lanes, e.2.scale = a → ∃ r, e.2.state = .held r := by
  have htesting : (!(s.verification a).state.isTesting) = true ↔
      ∀ p m b, (s.verification a).state ≠ .testing p m b := by
    rw [Bool.not_eq_true', ← Bool.not_eq_true, VerifyState.isTesting_iff]
    simp only [not_exists, ne_eq]
  have hlanes : s.lanes.all (fun e => e.2.scale != a || e.2.state.isHeld) = true ↔
      ∀ e ∈ s.lanes, e.2.scale = a → ∃ r, e.2.state = .held r := by
    simp only [List.all_eq_true, Bool.or_eq_true, bne_iff_ne, LaneState.isHeld_iff, imp_iff_not_or, ne_eq]
  rw [State.freeForTest, Bool.and_eq_true, htesting, hlanes]

/-- Scale `a` has been ordered to test with a mass of `m` grams (R137). -/
def State.testOrdered (s : State) (a m : Nat) : State :=
  (s.setVerification a { s.verification a with
    state := .testing (s.verification a).state.standing m false }).modStation a
    fun st => { st with order := some (.test m) }

theorem verifyScale_eq (p : VerifyParams) (s : State) :
    verifyScale p s =
      if 1 ≤ p.station ∧ p.station ≤ 14 ∧ (s.station p.station).kind = .scale then
        if 1000 ≤ p.mass ∧ p.mass ≤ 100000 then
          if (s.station p.station).join = .active then
            if p.mass ≤ (s.station p.station).capacity then
              if s.freeForTest p.station = true then
                if (s.station p.station).order = none then okay (s.testOrdered p.station p.mass.toNat) []
                else refuse s .inFlight
              else refuse s .badState
            else refuse s .badValue
          else refuse s .badState
        else refuse s .badValue
      else refuse s .noSuch := by
  simp only [verifyScale, checked_cons, checked_nil, State.isKind_eq_true, State.isActive_iff, Bool.and_eq_true,
    decide_eq_true_eq, Option.isNone_iff_eq_none, State.freeForTest, ite_and, State.testOrdered]

/-! ## CANCEL_VERIFY (R139) -/

/-- The test of scale `a` is withdrawn: the record stands as `prior`, and a TEST order that the station has been sent is
ended by a TEST_END order (R139). -/
def State.testWithdrawn (s : State) (a : Nat) (prior : Standing) (sent : Bool) : State :=
  (s.setVerification a { s.verification a with state := .at prior }).modStation a
    fun st => { st with order := if sent then some .testEnd else none }

theorem cancelVerify_noSuch {a : Nat} {s : State} (h : ¬ (1 ≤ a ∧ a ≤ 14 ∧ (s.station a).kind = .scale)) :
    cancelVerify a s = refuse s .noSuch := by
  rw [cancelVerify, checked_cons, if_neg (mt State.isKind_eq_true.mp h)]

section Cancel

variable {a : Nat} {s : State} (hscale : 1 ≤ a ∧ a ≤ 14 ∧ (s.station a).kind = .scale)
include hscale

theorem cancelVerify_at {st : Standing} (h : (s.verification a).state = .at st) :
    cancelVerify a s = refuse s .badState := by
  simp only [cancelVerify, checked_cons, if_pos (State.isKind_eq_true.mpr hscale), h]
  rfl

theorem cancelVerify_testing {prior : Standing} {m : Nat} {sent : Bool}
    (h : (s.verification a).state = .testing prior m sent) :
    cancelVerify a s = okay (s.testWithdrawn a prior sent) [byte prior.code] := by
  simp only [cancelVerify, checked_cons, if_pos (State.isKind_eq_true.mpr hscale), h]
  rfl

end Cancel

/-- Settles O43: each command's checks in their order, and the record and the order that it leaves. -/
theorem verificationIsCommanded : Obligations.VerificationIsCommanded := by
  intro s hs
  refine ⟨fun p hlatch => ?_, fun p hlatch => ?_, fun a hlatch => ?_⟩
  · intro scale good clamp v w
    have hclamp (st : Standing) : st.clamp p.period p.grace = clamp st := by
      rcases st with _ | _ | (_ | _) | _ <;> rfl
    have hstate : v.state.clamp p.period p.grace = w.state := by
      dsimp only [w]
      rcases v.state with st | ⟨prior, mass, sent⟩
      · exact congrArg VerifyState.at (hclamp st)
      · exact congrArg (VerifyState.testing · mass sent) (hclamp prior)
    have hw : v.configured p = w := by rw [Verification.configured, hstate]
    refine ⟨fun hno => ?_, fun hscale hbad => ?_, fun hscale hgood => ?_⟩
    · exact exec_refused hs hlatch rfl ((setVerify_eq p s).trans (if_neg hno))
    · exact exec_refused hs hlatch rfl (by rw [setVerify_eq, if_pos hscale, if_neg hbad])
    · have htaken := setVerify_eq p s
      rw [if_pos hscale, if_pos hgood, hw, VerifyState.timersData_eq] at htaken
      exact ⟨_, exec_okay hs hlatch rfl htaken, rfl, fun a => State.setVerification_verification s _ a w⟩
  · intro a scale light idle
    have hfree : s.freeForTest a = true ↔ idle := State.freeForTest_iff
    have htaken := verifyScale_eq p s
    refine ⟨fun hno => ?_, fun hscale hbad => ?_, fun hscale hlight hj => ?_, fun hscale hlight hj hcap => ?_,
      fun hscale hlight hj hcap => ⟨fun hbusy => ?_, fun hidle ho => ?_, fun st hidle ho hst => ?_⟩⟩
    · exact exec_refused hs hlatch rfl (htaken.trans (if_neg hno))
    · exact exec_refused hs hlatch rfl (by rw [htaken, if_pos hscale, if_neg hbad])
    · exact exec_refused hs hlatch rfl (by rw [htaken, if_pos hscale, if_pos hlight, if_neg hj])
    · exact exec_refused hs hlatch rfl (by
        rw [htaken, if_pos hscale, if_pos hlight, if_pos hj, if_neg (Int.not_le.mpr hcap)])
    all_goals rw [if_pos hscale, if_pos hlight, if_pos hj, if_pos hcap] at htaken
    · exact exec_refused hs hlatch rfl (htaken.trans (if_neg (mt hfree.mp hbusy)))
    · exact exec_refused hs hlatch rfl (by rw [htaken, if_pos (hfree.mpr hidle), if_neg ho])
    · rw [if_pos (hfree.mpr hidle), if_pos ho] at htaken
      refine ⟨_, exec_okay hs hlatch rfl htaken, rfl, fun b => ?_,
        fun b => State.modStation_station _ a b fun v => { v with order := some (.test p.mass.toNat) }⟩
      rw [State.setBuffer_verification, State.testOrdered, State.modStation_verification,
        State.setVerification_verification, hst]
      rfl
  · refine ⟨fun hno => ?_, fun st hscale hst => ?_, fun prior m sent hscale hst => ?_⟩
    · exact exec_refused hs hlatch rfl (cancelVerify_noSuch hno)
    · exact exec_refused hs hlatch rfl (cancelVerify_at hscale hst)
    · exact ⟨_, exec_okay hs hlatch rfl (cancelVerify_testing hscale hst), rfl,
        fun b => State.setVerification_verification s a b _,
        fun b => State.modStation_station _ a b fun v => { v with order := if sent then some .testEnd else none }⟩

/-! ## The cases of a test call (R138) -/

theorem exec_callTest {s : State} {a : Nat} {r : Reading} (hp : s.part = .running) (h1 : 1 ≤ a) (h14 : a ≤ 14)
    (hslot : (s.station a).slot = some (.test r)) : exec (.callTest a) s = .next (s.takeTest a r) :=
  congrArg Host.Outcome.next (takeFrom_taken hp h1 h14 hslot rfl)

section Test

variable {s : State} {a m : Nat} {r : Reading} {prior : Standing}

theorem State.takeTest_notTesting (h : ∀ p m, (s.verification a).state ≠ .testing p m true) :
    s.takeTest a r = s.answerCall a .notTesting 0 := by
  unfold State.takeTest
  split
  · next hst => exact absurd hst (h _ _)
  · rfl

/-- A record whose TEST order has been sent: the screen answers, or the reading is compared. -/
theorem State.takeTest_screened (h : (s.verification a).state = .testing prior m true) :
    s.takeTest a r =
      (screen r (s.station a).capacity).elim (s.compareTest a r.grams m) fun code => s.answerCall a code 0 := by
  unfold State.takeTest
  rw [h]
  cases screen r (s.station a).capacity <;> rfl

end Test

/-! ## The comparison (R138) -/

theorem testDifference_eq (g m : Nat) : testDifference g m = ((g : Int) - m).natAbs := by
  unfold testDifference; omega

/-- The reading of `g` grams is within the larger of division and tolerance of the test mass `m` (R138). -/
def State.passesTest (s : State) (a g m : Nat) : Bool :=
  decide (testDifference g m ≤ max (s.station a).division (s.verification a).tolerance)

/-- The answer of a comparison (R138). -/
def State.verdict (s : State) (a g m : Nat) : AnswerCode := if s.passesTest a g m then .testPass else .testFail

/-- The record and the notice that a comparison writes, before its answer is placed (R138). -/
def State.judged (s : State) (a g m : Nat) : State :=
  let t := s.setVerification a ((s.verification a).compared g m (s.station a).division (s.station a).capacity)
  if s.passesTest a g m then t else t.raise .scaleSuspended (some a)

section Compare

variable (s : State) (a g m : Nat)

theorem State.compareTest_eq : s.compareTest a g m =
    ((s.judged a g m).answerCall a (s.verdict a g m) (min (testDifference g m) 65535)).modStation a
      fun v => { v with order := some .testEnd } := rfl

theorem State.judged_eq : s.judged a g m =
    { s with verifications := (s.judged a g m).verifications, notices := (s.judged a g m).notices } := by
  unfold State.judged
  cases s.passesTest a g m <;> rfl

theorem State.judged_station (b : Nat) : (s.judged a g m).station b = s.station b := by rw [State.judged_eq]; rfl

theorem State.judged_wait (b : Nat) : (s.judged a g m).wait b = s.wait b := by rw [State.judged_eq]; rfl

theorem State.judged_verification (b : Nat) : (s.judged a g m).verification b =
    if b = a then (s.verification a).compared g m (s.station a).division (s.station a).capacity
    else s.verification b := by
  rw [← State.setVerification_verification, State.judged]
  cases s.passesTest a g m <;> rfl

theorem State.judged_raises : s.raisesAs (s.judged a g m) fun j =>
    if j = .scaleSuspended ∧ s.passesTest a g m = false then some a else none := by
  unfold State.judged
  cases s.passesTest a g m with
  | true => exact fun j => by simp
  | false =>
    simp only [and_true]
    exact (s.setVerification a _).raisesAs_raise .scaleSuspended a

/-- What a comparison changes: the record and the notice of its verdict, and the call that it answers. -/
theorem State.compareTest_frame : s.compareTest a g m = { s with
    stations := (s.compareTest a g m).stations
    waits := (s.compareTest a g m).waits
    verifications := (s.compareTest a g m).verifications
    notices := (s.compareTest a g m).notices } := by
  have hjudged := s.judged_eq a g m
  have hcall (c : AnswerCode) (x : Nat) := (s.judged a g m).answerCall_eq a c x
  rw [State.compareTest_eq]
  generalize s.judged a g m = u at *
  rw [hcall, hjudged]
  rfl

theorem State.compareTest_verification (b : Nat) :
    (s.compareTest a g m).verification b = (s.judged a g m).verification b := by
  rw [State.compareTest_eq, State.modStation_verification, State.answerCall_verification]

theorem State.compareTest_notice (j : NoticeKind) :
    (s.compareTest a g m).notice j = (s.judged a g m).notice j := by
  rw [State.compareTest_eq, State.modStation_notice, State.answerCall_notice]

section Answered

variable {s a} (hj : (s.station a).join = .active)
include hj

theorem State.answersCall_judged : s.answersCall
    ((s.judged a g m).answerCall a (s.verdict a g m) (min (testDifference g m) 65535)) a
    (.answer (s.verdict a g m) (min (testDifference g m) 65535)) :=
  State.answersCall_congr
    ((s.judged a g m).answersCall_answerCall a _ _ (by rw [State.judged_station]; exact Join.hears_active hj))
    (s.judged_station a g m) (s.judged_wait a g m) (fun _ => rfl) fun _ => rfl

theorem State.compareTest_station (b : Nat) : (s.compareTest a g m).station b =
    if b = a then
      { (s.station a).answered (.answer (s.verdict a g m) (min (testDifference g m) 65535)) with
        order := some .testEnd }
    else s.station b := by
  obtain ⟨hstation, -, hothers⟩ := State.answersCall_judged g m hj
  rw [State.compareTest_eq, State.modStation_station, hstation]
  exact ite_congr rfl (fun _ => rfl) fun hb => (hothers b hb).1

theorem State.compareTest_wait (b : Nat) :
    (s.compareTest a g m).wait b = if b = a then .none else s.wait b := by
  obtain ⟨-, hwait, hothers⟩ := State.answersCall_judged g m hj
  rw [State.compareTest_eq, State.modStation_wait]
  by_cases hb : b = a
  · rw [if_pos hb, hb, hwait]
  · rw [if_neg hb, (hothers b hb).2]

end Answered

end Compare

/-- Settles O44: the first case that answers, and past the screen the comparison part by part. -/
theorem testReadingIsCompared : Obligations.TestReadingIsCompared := by
  intro s a r hp h1 h14 hj hslot v top only
  have hexec := exec_callTest hp h1 h14 hslot
  have answered {code : AnswerCode} (ht : s.takeTest a r = s.answerCall a code 0) : only code :=
    ⟨_, hexec, State.answersOnly hj ht⟩
  refine ⟨fun hno => answered (State.takeTest_notTesting hno), fun prior m hst => ?_⟩
  have htaken := State.takeTest_screened (r := r) hst
  have screened {code : AnswerCode} (hc : screen r top = some code) : only code :=
    answered (by rw [htaken, hc, Option.elim_some])
  refine ⟨fun hs => ?_, fun hs hc => ?_, fun hs ho hg hu => ?_, fun hpasses => ?_⟩
  · exact screened (screen_unstable hs)
  · exact screened (screen_overCapacity hs hc)
  · exact screened (screen_underload hs ho hg hu)
  · intro difference pass
    rw [screen_of_passes hpasses, Option.elim_none] at htaken
    have hdifference : testDifference r.grams m = difference := testDifference_eq r.grams m
    have hpass : s.passesTest a r.grams m = pass := by rw [State.passesTest, hdifference]
    refine ⟨_, hexec.trans (congrArg _ htaken), ?_, fun b => ?_, State.compareTest_wait r.grams m hj, fun b => ?_,
      fun j => ?_⟩
    · exact s.compareTest_frame a r.grams m
    · rw [State.compareTest_station r.grams m hj, State.verdict, hpass, hdifference]
    · rw [State.compareTest_verification, State.judged_verification]
      simp only [Verification.compared, hdifference, minutes]
      rfl
    · rw [State.compareTest_notice, s.judged_raises a r.grams m j, hpass]

end Sys2Proof.Machine
end

section
/-! PROOFS. The two station commands (O16, O17): SET_STATION, its checks in their order and the entry, verification
record and head that it leaves, and READ_STATION with the counters that it clears. -/

namespace Sys2Proof.Machine

/-! ## READ_STATION (R157) -/

/-- The station's entry once its snapshot is read. -/
def Station.countersRead (v : Station) : Station :=
  { v with lostSinceRead := false, parityErrors := 0, addressErrors := 0, busyAnswers := 0, losses := 0 }

theorem readStation_eq (a : Nat) (s : State) :
    readStation a s =
      if 1 ≤ a ∧ a ≤ 14 then okay (s.modStation a Station.countersRead) (s.stationData a) else refuse s .noSuch := by
  simp only [readStation, checked_cons, checked_nil, Bool.and_eq_true, decide_eq_true_eq]
  rfl

/-- Settles O17: the address is the one check, and the clearing writes that station's entry alone. -/
theorem stationIsRead : Obligations.StationIsRead := by
  intro s a hs h
  refine ⟨fun hno => ?_, fun h1 h14 => ?_⟩
  · exact exec_refused hs h rfl (by rw [readStation_eq, if_neg hno])
  · have htaken := (readStation_eq a s).trans (if_pos ⟨h1, h14⟩)
    refine ⟨_, exec_okay hs h rfl htaken, rfl, fun b hb => ?_, ?_⟩
    · rw [State.setBuffer_station, State.modStation_station, if_neg hb]
    · rw [State.setBuffer_station, State.modStation_self]
      rfl

/-! ## SET_STATION (R156): the checks -/

theorem Lane.names_iff {l : Lane} {a : Nat} : l.names a = true ↔ l.scale = a ∨ ∃ k, l.target = .lot k a := by
  unfold Lane.names
  cases l.target <;> simp

theorem Bulk.names_iff {b : Bulk} {a : Nat} : b.names a = true ↔ ∃ c ∈ b.components, c.bin = a := by
  simp only [Bulk.names, List.any_eq_true, beq_iff_eq]

/-- Checks 3 to 6 of SET_STATION: the station is not in use. -/
def State.unused (s : State) (a : Nat) : Bool :=
  (s.station a).join != .active && s.lanes.all (fun e => !e.2.names a) && s.bulks.all (fun e => !e.2.names a) &&
    (s.head a).queue == []

theorem State.unused_iff {s : State} {a : Nat} : s.unused a = true ↔ (s.station a).join ≠ .active ∧
    ¬ ((∃ e ∈ s.lanes, e.2.scale = a ∨ ∃ k, e.2.target = .lot k a) ∨
      ∃ e ∈ s.bulks, ∃ c ∈ e.2.components, c.bin = a) ∧ (s.head a).queue = [] := by
  simp only [State.unused, Bool.and_eq_true, bne_iff_ne, List.all_eq_true, Bool.not_eq_true', ← Bool.not_eq_true,
    Lane.names_iff, Bulk.names_iff, beq_iff_eq, not_or, not_exists, not_and, and_assoc]

/-- The state after SET_STATION is taken (R156). -/
def State.configured (s : State) (a : Nat) (kind : StationKind) (interval : Nat) : State :=
  let t := s.setStation a ((s.station a).configured kind interval)
  if (s.station a).kind = kind then t
  else (t.setVerification a (s.verification a).kindChanged).setHead a (s.head a).kindChanged

theorem setStation_eq (p : SetStationParams) (s : State) :
    setStation p s =
      if 1 ≤ p.station ∧ p.station ≤ 14 then
        if p.kind ≤ 3 ∧ p.interval ≤ 10000 then
          if s.unused p.station = true then
            okay (s.configured p.station (pageKind p.kind) p.interval)
              [byte ((s.configured p.station (pageKind p.kind) p.interval).station p.station).join.code]
          else refuse s .badState
        else refuse s .badValue
      else refuse s .noSuch := by
  simp only [setStation, checked_cons, checked_nil, Bool.and_eq_true, decide_eq_true_eq, State.unused,
    ite_and, u1_eq]
  rfl

/-! ## SET_STATION (R156): the effect -/

section Configured

variable (s : State) (a b : Nat) (kind : StationKind) (interval : Nat)

theorem State.configured_frame :
    let t := s.configured a kind interval
    t = { s with stations := t.stations, verifications := t.verifications, heads := t.heads } := by
  unfold State.configured
  dsimp only
  split <;> rfl

theorem State.configured_station : (s.configured a kind interval).station b =
    if b = a then (s.station a).configured kind interval else s.station b := by
  unfold State.configured
  dsimp only
  split
  · rw [State.setStation_station]
  · rw [State.setHead_station, State.setVerification_station, State.setStation_station]

theorem State.configured_verification : (s.configured a kind interval).verification b =
    if b = a ∧ (s.station a).kind ≠ kind then (s.verification a).kindChanged else s.verification b := by
  unfold State.configured
  dsimp only
  by_cases hk : (s.station a).kind = kind
  · rw [if_pos hk, if_neg fun h => h.2 hk, State.setStation_verification]
  · simp only [hk, if_false, State.setHead_verification, State.setVerification_verification,
      State.setStation_verification, ne_eq, not_false_eq_true, and_true]

theorem State.configured_head : (s.configured a kind interval).head b =
    if b = a ∧ (s.station a).kind ≠ kind then (s.head a).kindChanged else s.head b := by
  unfold State.configured
  dsimp only
  by_cases hk : (s.station a).kind = kind
  · rw [if_pos hk, if_neg fun h => h.2 hk, State.setStation_head]
  · simp only [hk, if_false, State.setHead_head, State.setVerification_head, State.setStation_head, ne_eq,
      not_false_eq_true, and_true]

end Configured

theorem Head.kindChanged_eq {h : Head} (hq : h.queue = []) : h.kindChanged = Head.cold := by
  simp only [Head.kindChanged, Head.cold, hq]

theorem Station.configured_refused {v : Station} (kind : StationKind) (interval : Nat) (hj : v.join = .refused) :
    v.configured kind interval = { v with
      kind := kind
      interval := interval
      abilities := if v.kind = kind then v.abilities else none
      join := .absent
      silence := 0
      answers := [] } := by
  simp only [Station.configured, hj, if_true]

theorem Station.configured_kept {v : Station} (kind : StationKind) (interval : Nat) (hj : v.join ≠ .refused) :
    v.configured kind interval = { v with
      kind := kind
      interval := interval
      abilities := if v.kind = kind then v.abilities else none } := by
  simp only [Station.configured, hj, if_false]

/-- Settles O16, check by check, and then the entry, the record and the head by whether the kind changes. -/
theorem stationIsConfigured : Obligations.StationIsConfigured := by
  intro s p hs h a v kind named
  refine ⟨fun hno => ?_, fun h1 h14 => ⟨fun hbad => ?_, fun hk hi => ⟨fun hused => ?_, fun hj hn hq => ?_⟩⟩⟩
  · exact exec_refused hs h rfl (by rw [setStation_eq, if_neg hno])
  · exact exec_refused hs h rfl (by rw [setStation_eq, if_pos ⟨h1, h14⟩, if_neg hbad])
  · have hno : ¬ s.unused a = true := by
      rw [State.unused_iff]
      rintro ⟨hj, hn, hq⟩
      rcases hused with h | h | h
      · exact hj h
      · exact hn h
      · exact h hq
    exact exec_refused hs h rfl (by rw [setStation_eq, if_pos ⟨h1, h14⟩, if_pos ⟨hk, hi⟩, if_neg hno])
  · have htaken : setStation p s = okay (s.configured a kind p.interval)
        [byte ((s.configured a kind p.interval).station a).join.code] := by
      rw [setStation_eq, if_pos ⟨h1, h14⟩, if_pos ⟨hk, hi⟩, if_pos (State.unused_iff.mpr ⟨hj, hn, hq⟩)]
    have hframe := s.configured_frame a kind p.interval
    have hstation := s.configured_station a (kind := kind) (interval := p.interval)
    have hverification := s.configured_verification a (kind := kind) (interval := p.interval)
    have hhead := s.configured_head a (kind := kind) (interval := p.interval)
    have hown := (hstation a).trans (if_pos rfl)
    generalize s.configured a kind p.interval = t at *
    refine ⟨_, exec_okay hs h rfl htaken, ?_, fun b hb => ⟨?_, ?_, ?_⟩, fun hsame => ⟨?_, ?_, ?_⟩,
      fun hchange => ⟨?_, ?_, ?_⟩, fun href => ?_, fun hkept => ?_⟩
    · rw [hframe]; rfl
    · exact (hstation b).trans (if_neg hb)
    · exact (hverification b).trans (if_neg fun h => hb h.1)
    · exact (hhead b).trans (if_neg fun h => hb h.1)
    · exact (hverification a).trans (if_neg fun h => h.2 hsame)
    · exact (hhead a).trans (if_neg fun h => h.2 hsame)
    · exact (congrArg Station.abilities hown).trans (if_pos hsame)
    · exact (congrArg Station.abilities hown).trans (if_neg hchange)
    · exact (hverification a).trans (if_pos ⟨rfl, hchange⟩)
    · exact ((hhead a).trans (if_pos ⟨rfl, hchange⟩)).trans (Head.kindChanged_eq hq)
    · have hentry := hown.trans (Station.configured_refused kind p.interval href)
      rw [State.setBuffer_station, hentry]
    · have hentry := hown.trans (Station.configured_kept kind p.interval hkept)
      rw [State.setBuffer_station, hentry]

end Sys2Proof.Machine
end

section
/-! PROOFS. The inbound half-slot (O53, O54): a slot judged by its silence, its errors or its word, by the station's
join state; the calls; the pages of an announce and its judgement. -/

namespace Sys2Proof.Machine

/-! ## Changes of one station's entry -/

/-- From `s` to `t` the entry of station `a` becomes `u` and nothing else changes. -/
structure State.Enters (s t : State) (a : Nat) (u : Station) : Prop where
  frame : t = { s with stations := t.stations }
  station : ∀ b, t.station b = if b = a then u else s.station b

namespace State.Enters

variable {s t : State} {a : Nat} {u : Station}

theorem of_setStation : s.Enters (s.setStation a u) a u where
  frame := rfl
  station b := State.setStation_station s a b u

theorem self (h : s.Enters t a u) : t.station a = u := (h.station a).trans (if_pos rfl)

theorem setStation (h : s.Enters t a u) (w : Station) : s.Enters (t.setStation a w) a w where
  frame := by rw [h.frame]; rfl
  station b := by
    rw [State.setStation_station, h.station]
    split <;> rfl

/-- An answer placed for a station that has an answer list (R151). -/
theorem placeAnswer (h : s.Enters t a u) (hj : u.join.hears = true) (x : Answer) :
    s.Enters (t.placeAnswer a x) a { u with answers := placeAtEnd u.answers x } := by
  have hplaced := h.setStation { u with answers := placeAtEnd u.answers x }
  rwa [State.placeAnswer, State.modStation, h.self, if_pos hj]

end State.Enters

/-- A second BUSY, WRONG_CALL or REFUSE is not placed while one waits (R151). -/
theorem placeAtEnd_merges {x : Answer} (hx : x.merges = true) (l : List Answer) :
    placeAtEnd l x = if x ∈ l then l else l ++ [x] := by
  simp only [placeAtEnd, hx, Bool.true_and, List.contains_eq_mem, decide_eq_true_eq]

/-! ## The slot and its word (R145) -/

section Slot

variable {s : State} {a : Nat} {w : LinkWord}

theorem State.judgeSlot_parity (h : oddParity w = false) : s.judgeSlot a (some w) =
    s.setStation a { (s.station a).silent with parityErrors := bump (s.station a).parityErrors } := by
  simp [State.judgeSlot, h]

theorem State.judgeSlot_address (h : oddParity w = true) (ha : wordAddress w ≠ a) : s.judgeSlot a (some w) =
    s.setStation a { (s.station a).silent with addressErrors := bump (s.station a).addressErrors } := by
  simp [State.judgeSlot, h, ha]

theorem State.judgeSlot_admits (h : oddParity w = true) (ha : wordAddress w = a) :
    s.judgeSlot a (some w) = s.admitWord a (inboundOf w) := by
  simp [State.judgeSlot, h, ha]

end Slot

/-! ## The admitted word, by the join state (R146) -/

section Admitted

variable {s : State} {a : Nat}

theorem State.admitWord_refused (i : Inbound) (hj : (s.station a).join = .refused) :
    s.admitWord a i = (s.setStation a (s.station a).heard).placeAnswer a .refuse := by
  unfold State.admitWord; simp only [hj]

theorem State.admitWord_lost {n : Nat} (i : Inbound) (hj : (s.station a).join = .lost n) :
    s.admitWord a i = s.setStation a (s.station a).silent := by
  unfold State.admitWord; simp only [hj]

/-- Outside the window no cycle is counted, so a PRESENT there counts like one in it. -/
theorem State.admitWord_present (hj : (s.station a).join = .absent ∨ (∃ n, (s.station a).join = .announcing n) ∨
    (s.station a).join = .active) : s.admitWord a .present = s.setStation a (s.station a).heard.afterCycle := by
  rcases hj with hj | ⟨n, hj⟩ | hj
  · unfold State.admitWord; simp only [hj, Station.afterCycle, Station.heard]
  · unfold State.admitWord; simp only [hj, Station.countCycle_eq_afterCycle]
  · unfold State.admitWord; simp only [hj, Station.afterCycle, Station.heard]

theorem State.admitWord_unknown (hj : (s.station a).join = .absent ∨ (∃ n, (s.station a).join = .announcing n) ∨
    (s.station a).join = .active) : s.admitWord a .unknown = s.setStation a (s.station a).silent := by
  rcases hj with hj | ⟨n, hj⟩ | hj
  · unfold State.admitWord; simp only [hj]
  · unfold State.admitWord; simp only [hj]
  · unfold State.admitWord; simp only [hj]

theorem State.admitWord_call_unjoined (c : Call)
    (hj : (s.station a).join = .absent ∨ ∃ n, (s.station a).join = .announcing n) :
    s.admitWord a (.call c) = s.setStation a (s.station a).silent := by
  rcases hj with hj | ⟨n, hj⟩
  · unfold State.admitWord; simp only [hj]
  · unfold State.admitWord; simp only [hj]

theorem State.admitWord_page_absent {p : Page} (hj : (s.station a).join = .absent) (hp : ∀ kind, p ≠ .a kind) :
    s.admitWord a (.announce p) = s.setStation a (s.station a).silent := by
  cases p with
  | a kind => exact absurd rfl (hp kind)
  | b x => unfold State.admitWord; simp only [hj]
  | c x => unfold State.admitWord; simp only [hj]

theorem State.admitWord_page_active (p : Page) (hj : (s.station a).join = .active) :
    s.admitWord a (.announce p) = s.setStation a (s.station a).silent := by
  unfold State.admitWord; simp only [hj]

theorem State.admitWord_call_active (c : Call) (hj : (s.station a).join = .active) :
    s.admitWord a (.call c) = (s.setStation a (s.station a).heard).arrive a c := by
  unfold State.admitWord; simp only [hj]

theorem State.admitWord_page_announcing {n : Nat} (p : Page) (hj : (s.station a).join = .announcing n) :
    s.admitWord a (.announce p) = s.takePage a p := by
  unfold State.admitWord; simp only [hj]

theorem State.admitWord_begins (kind : StationKind)
    (hj : (s.station a).join = .absent ∨ ∃ n, (s.station a).join = .announcing n) :
    s.admitWord a (.announce (.a kind)) = s.setStation a ((s.station a).begin kind) := by
  rcases hj with hj | ⟨n, hj⟩
  · unfold State.admitWord; simp only [hj]
  · unfold State.admitWord; simp only [hj, State.takePage]

end Admitted

/-! ## A call that arrives (R153) -/

theorem StationKind.mayCall_iff {k : StationKind} {c : Call} : k.mayCall c = true ↔
    (k = .scale ∧ ((∃ r, c = .gross r) ∨ (∃ r, c = .tare r) ∨ ∃ r, c = .test r)) ∨
    (k = .stencil ∧ (c = .replyDone ∨ ∃ f, c = .replyFault f)) ∨
    (k = .bin ∧ ((∃ q, c = .charge q) ∨ ∃ m, c = .done m)) := by
  cases k with
  | none => simp [StationKind.mayCall]
  | scale => cases c <;> simp [StationKind.mayCall]
  | stencil => cases c <;> simp [StationKind.mayCall]
  | bin => cases c <;> simp [StationKind.mayCall]

section Arrive

variable {s t : State} {a : Nat} {u : Station} {c : Call} (h : s.Enters t a u) (hj : u.join = .active)
include h hj

theorem State.arrive_wrongCall (hc : ¬ u.kind.mayCall c = true) :
    s.Enters (t.arrive a c) a { u with answers := placeAtEnd u.answers (.answer .wrongCall 0) } := by
  have hplaced := h.placeAnswer (by simp only [hj, Join.hears]) (.answer .wrongCall 0)
  simpa only [State.arrive, h.self, hc, Bool.not_false, if_true] using hplaced

theorem State.arrive_busy (hc : u.kind.mayCall c = true) (hslot : u.slot ≠ none) :
    s.Enters (t.arrive a c) a { u with
      busyAnswers := bump u.busyAnswers
      answers := placeAtEnd u.answers (.answer .busy 0) } := by
  have hplaced := (h.setStation { u with busyAnswers := bump u.busyAnswers }).placeAnswer
    (by simp only [hj, Join.hears]) (.answer .busy 0)
  simpa [State.arrive, h.self, hc, Option.isSome_iff_ne_none.mpr hslot] using hplaced

theorem State.arrive_pending (hc : u.kind.mayCall c = true) (hslot : u.slot = none) :
    s.Enters (t.arrive a c) a { u with slot := some c, answers := u.answers ++ [.answer .pending 0] } := by
  have hplaced := (h.setStation { u with slot := some c }).placeAnswer
    (by simp only [hj, Join.hears]) (.answer .pending 0)
  simpa [State.arrive, h.self, hc, hslot, placeAtEnd, Answer.merges] using hplaced

end Arrive

/-- Settles O53: a closed slot, a slot without an admitted word, and the admitted word by the join state. -/
theorem inboundWordIsJudged : Obligations.InboundWordIsJudged := by
  intro s a hp h1 h14 v silent heard becomes placed
  have judged {w : Option LinkWord} {u : Station} (hopen : v.slotOpen = true) (h : s.Enters (s.judgeSlot a w) a u) :
      becomes w u :=
    ⟨_, congrArg Host.Outcome.next (inboundWord_open hp h1 h14 hopen w), h.frame, h.station⟩
  have hsilent : v.silent = silent := v.silent_eq_afterSilence
  refine ⟨fun hclosed w => ?_, fun hopen => ?_, fun w hopen hbad => ?_, fun w hopen hodd ha => ?_,
    fun w i hopen hodd ha hi => ?_⟩
  · exact congrArg Host.Outcome.next (inboundWord_closed hclosed w)
  · exact judged hopen (hsilent ▸ .of_setStation)
  · refine judged hopen ?_
    rw [State.judgeSlot_parity hbad, ← hsilent]
    exact .of_setStation
  · refine judged hopen ?_
    rw [State.judgeSlot_address hodd ha, ← hsilent]
    exact .of_setStation
  · have admitted {u : Station} (h : s.Enters (s.admitWord a i) a u) : becomes (some w) u :=
      judged hopen (by rwa [State.judgeSlot_admits hodd ha, hi])
    have written {u : Station} (h : s.admitWord a i = s.setStation a u) : becomes (some w) u :=
      admitted (by rw [h]; exact .of_setStation)
    refine ⟨fun hj => ?_, fun ⟨n, hj⟩ => ?_, fun hj => ⟨fun e => ?_, fun e => ?_⟩, fun hj c e => ?_, fun hj x e => ?_,
      fun hj => ⟨fun p e => ?_, fun c e => ?_⟩⟩
    · have hplaced := (State.Enters.of_setStation (s := s) (a := a) (u := v.heard)).placeAnswer
        (by simp only [Station.heard, v, hj, Join.hears]) .refuse
      rw [placeAtEnd_merges rfl] at hplaced
      exact admitted (by rw [State.admitWord_refused i hj]; exact hplaced)
    · exact written ((State.admitWord_lost i hj).trans (by rw [← hsilent]))
    · exact written (by rw [e]; exact State.admitWord_present hj)
    · exact written (by rw [e, ← hsilent]; exact State.admitWord_unknown hj)
    · exact written (by rw [e, ← hsilent]; exact State.admitWord_call_unjoined c hj)
    · rcases e with e | e
      · exact written (by rw [e, ← hsilent]; exact State.admitWord_page_absent hj nofun)
      · exact written (by rw [e, ← hsilent]; exact State.admitWord_page_absent hj nofun)
    · exact written (by rw [e, ← hsilent]; exact State.admitWord_page_active p hj)
    · intro may
      have called {u : Station} (h : s.Enters ((s.setStation a v.heard).arrive a c) a u) : becomes (some w) u :=
        admitted (by rwa [e, State.admitWord_call_active c hj])
      have listens : s.Enters (s.setStation a v.heard) a v.heard := .of_setStation
      have hmay : v.heard.kind.mayCall c = true ↔ may := StationKind.mayCall_iff
      refine ⟨fun hno => ?_, fun hc hslot => ?_, fun hc hslot => ?_⟩
      · have hplaced := State.arrive_wrongCall listens hj (mt hmay.mp hno)
        rw [placeAtEnd_merges rfl] at hplaced
        exact called hplaced
      · have hplaced := State.arrive_busy listens hj (hmay.mpr hc) hslot
        rw [placeAtEnd_merges rfl] at hplaced
        exact called hplaced
      · exact called (State.arrive_pending listens hj (hmay.mpr hc) hslot)

/-! ## The pages of an announce (R147) -/

section Pages

variable {s : State} {a : Nat}

theorem State.takePage_b {kind : StationKind} (x : Nat)
    (h : (s.station a).pages = some { kind := kind, pageB := none, pageC := none }) :
    s.takePage a (.b x) = s.setStation a
      { (s.station a).heard with pages := some { kind := kind, pageB := some x, pageC := none } }.afterCycle := by
  simp only [State.takePage, h, Station.countCycle_eq_afterCycle]

theorem State.takePage_b_ignored (x : Nat)
    (h : ∀ kind, (s.station a).pages ≠ some { kind := kind, pageB := none, pageC := none }) :
    s.takePage a (.b x) = s.setStation a (s.station a).heard.afterCycle := by
  rw [← Station.countCycle_eq_afterCycle]
  unfold State.takePage
  dsimp only
  split
  · next k hk => exact absurd hk (h k)
  · rfl

theorem State.takePage_c {kind : StationKind} {b : Nat} (x : Nat)
    (h : (s.station a).pages = some { kind := kind, pageB := some b, pageC := none }) :
    s.takePage a (.c x) = (s.setStation a { (s.station a).heard with
      pages := some { kind := kind, pageB := some b, pageC := some x } }).judge a kind b x := by
  simp only [State.takePage, h]

theorem State.takePage_c_ignored (x : Nat)
    (h : ∀ kind b, (s.station a).pages ≠ some { kind := kind, pageB := some b, pageC := none }) :
    s.takePage a (.c x) = s.setStation a (s.station a).heard.afterCycle := by
  rw [← Station.countCycle_eq_afterCycle]
  unfold State.takePage
  dsimp only
  split
  · next k b hk => exact absurd hk (h k b)
  · rfl

end Pages

/-! ## The judgement of an announce (R148, R140) -/

/-- The abilities that an announce resolves, when its kind is the expected one (R148). -/
def Station.announced (v : Station) (kind : StationKind) (b c : Nat) : Option Abilities :=
  if v.kind = kind then resolve kind b c v.interval else none

theorem resolve_scale (b c i : Nat) : resolve .scale b c i =
    if (b = 1 ∨ b = 2 ∨ b = 5 ∨ b = 10 ∨ b = 20 ∨ b = 50 ∨ b = 100 ∨ b = 200) ∧ 1000 ≤ c ∧ c ≤ 250000 then
      some (.scale b c)
    else none := by
  simp only [resolve, List.contains_eq_mem, List.mem_cons, List.not_mem_nil, or_false, decide_eq_true_eq]

theorem resolve_stencil (b c i : Nat) : resolve .stencil b c i =
    if 100 ≤ b ∧ b ≤ 5000 ∧ 200 ≤ c ∧ c ≤ 10000 then some (.stencil b (max c i)) else none := rfl

theorem resolve_bin (b c i : Nat) : resolve .bin b c i =
    if 1000 ≤ b ∧ b ≤ 500000 ∧ c = 0 then some (.bin b) else none := rfl

/-- An announce of another kind than the expected one, or of abilities out of their limits, resolves none. -/
theorem Station.announced_none {v : Station} {kind : StationKind} {b c : Nat}
    (hscale : ¬ (v.kind = .scale ∧ kind = .scale ∧
      (b = 1 ∨ b = 2 ∨ b = 5 ∨ b = 10 ∨ b = 20 ∨ b = 50 ∨ b = 100 ∨ b = 200) ∧ 1000 ≤ c ∧ c ≤ 250000))
    (hstencil : ¬ (v.kind = .stencil ∧ kind = .stencil ∧ 100 ≤ b ∧ b ≤ 5000 ∧ 200 ≤ c ∧ c ≤ 10000))
    (hbin : ¬ (v.kind = .bin ∧ kind = .bin ∧ 1000 ≤ b ∧ b ≤ 500000 ∧ c = 0)) : v.announced kind b c = none := by
  unfold Station.announced
  split
  · next hk =>
    cases kind with
    | none => rfl
    | scale => rw [resolve_scale, if_neg fun h => hscale ⟨hk, rfl, h⟩]
    | stencil => rw [resolve_stencil, if_neg fun h => hstencil ⟨hk, rfl, h⟩]
    | bin => rw [resolve_bin, if_neg fun h => hbin ⟨hk, rfl, h⟩]
  · rfl

/-- The station once its announce is accepted. -/
def Station.joined (v : Station) (x : Abilities) : Station :=
  { v with join := .active, silence := 0, abilities := some x }

/-- The station once its announce is refused. -/
def Station.turnedAway (v : Station) : Station := { v with join := .refused, silence := 0, abilities := none }

section Judged

variable {s : State} {a : Nat} {kind : StationKind} {b c : Nat}

theorem State.judge_accepts {x : Abilities} (h : (s.station a).announced kind b c = some x) : s.judge a kind b c =
    (s.setStation a ((s.station a).joined x)).setVerification a ((s.verification a).rejoined x) := by
  unfold Station.announced at h
  simp only [State.judge, h]
  rfl

theorem State.judge_refuses (h : (s.station a).announced kind b c = none) : s.judge a kind b c =
    (s.setStation a (s.station a).turnedAway).raise .stationRefused (some a) := by
  unfold Station.announced at h
  simp only [State.judge, h]
  rfl

end Judged

/-- A completed announce that is accepted: the entry and the verification record of its station change. -/
theorem State.Enters.judge_accepts {s t : State} {a : Nat} {u : Station} {kind : StationKind} {b c : Nat}
    {x : Abilities} (h : s.Enters t a u) (hx : u.announced kind b c = some x) :
    let t' := t.judge a kind b c
    t' = { s with stations := t'.stations, verifications := t'.verifications } ∧
    (∀ d, t'.station d = if d = a then u.joined x else s.station d) ∧
    ∀ d, t'.verification d = if d = a then (s.verification a).rejoined x else s.verification d := by
  rw [← h.self] at hx
  have hframe := h.frame
  have hverification (d : Nat) : t.verification d = s.verification d := by rw [hframe]; rfl
  rw [State.judge_accepts hx]
  refine ⟨?_, fun d => ?_, fun d => ?_⟩
  · rw [hframe]; rfl
  · rw [State.setVerification_station, (h.setStation _).station, h.self]
  · rw [State.setVerification_verification, State.setStation_verification, hverification, hverification]

/-- A completed announce that is refused: the entry changes, and STATION_REFUSED is raised. -/
theorem State.Enters.judge_refuses {s t : State} {a : Nat} {u : Station} {kind : StationKind} {b c : Nat}
    (h : s.Enters t a u) (hx : u.announced kind b c = none) :
    let t' := t.judge a kind b c
    t' = { s with stations := t'.stations, notices := t'.notices } ∧
    (∀ d, t'.station d = if d = a then u.turnedAway else s.station d) ∧
    s.raisesAs t' (fun j => if j = .stationRefused then some a else none) := by
  rw [← h.self] at hx
  have hframe := h.frame
  have hnotice (j : NoticeKind) : (t.setStation a u.turnedAway).notice j = s.notice j := by rw [hframe]; rfl
  rw [State.judge_refuses hx, h.self]
  refine ⟨?_, fun d => ?_, fun j => ?_⟩
  · rw [hframe]; rfl
  · rw [State.raise_station, (h.setStation _).station]
  · rw [State.raisesAs_raise _ .stationRefused a j, hnotice]

/-- A scale that joins with other abilities than the verified ones is UNVERIFIED (R140). -/
theorem Verification.rejoined_scale (v : Verification) (d c : Nat) : v.rejoined (.scale d c) =
    if v.state.fit = true ∧ v.abilities ≠ some (d, c) then { v with state := .at .unverified, abilities := none }
    else v := rfl

/-- Settles O54: page A, then pages B and C as they follow or not, and the judgement by what the announce resolves. -/
theorem announceIsJudged : Obligations.AnnounceIsJudged := by
  intro s a w hp h1 h14 hopen hodd ha v heard becomes
  have hexec : exec (.inboundWord a (some w)) s = .next (s.admitWord a (inboundOf w)) :=
    congrArg Host.Outcome.next ((inboundWord_open hp h1 h14 hopen _).trans (State.judgeSlot_admits hodd ha))
  have written {u : Station} (h : s.admitWord a (inboundOf w) = s.setStation a u) : becomes u :=
    ⟨_, hexec.trans (congrArg _ h), State.Enters.of_setStation.frame, State.Enters.of_setStation.station⟩
  refine ⟨fun kind hj hw => ?_, fun n hj => ?_⟩
  · exact written (by rw [hw]; exact State.admitWord_begins kind hj)
  · have paged {p : Page} (hw : inboundOf w = .announce p) : s.admitWord a (inboundOf w) = s.takePage a p := by
      rw [hw]; exact State.admitWord_page_announcing p hj
    refine ⟨fun x hw => ⟨fun kind hpages => ?_, fun hno => ?_⟩, fun x hw => ⟨fun hno => ?_, fun kind b hpages => ?_⟩⟩
    · exact written ((paged hw).trans (State.takePage_b x hpages))
    · exact written ((paged hw).trans (State.takePage_b_ignored x hno))
    · exact written ((paged hw).trans (State.takePage_c_ignored x hno))
    · intro u scale stencil bin
      have hjudged : exec (.inboundWord a (some w)) s = .next ((s.setStation a u).judge a kind b x) :=
        hexec.trans (congrArg _ ((paged hw).trans (State.takePage_c x hpages)))
      have entered : s.Enters (s.setStation a u) a u := .of_setStation
      refine ⟨fun hgood => ?_, fun hscale hstencil hbin => ?_⟩
      · have kept (c : Nat) : (if c = a then s.verification a else s.verification c) = s.verification c := by
          split
          · next hc => rw [hc]
          · rfl
        rcases hgood with ⟨hv, rfl, hlimits⟩ | ⟨hv, rfl, hlimits⟩ | ⟨hv, rfl, hlimits⟩
        · obtain ⟨hframe, hstation, hverification⟩ := entered.judge_accepts (x := .stencil b (max x v.interval))
            ((if_pos hv).trans ((resolve_stencil b x _).trans (if_pos hlimits)))
          exact ⟨_, hjudged, hframe, hstation, fun c =>
            ((hverification c).trans (kept c)).trans (if_neg fun h => nomatch h.2.1).symm⟩
        · obtain ⟨hframe, hstation, hverification⟩ := entered.judge_accepts (x := .bin b)
            ((if_pos hv).trans ((resolve_bin b x _).trans (if_pos hlimits)))
          exact ⟨_, hjudged, hframe, hstation, fun c =>
            ((hverification c).trans (kept c)).trans (if_neg fun h => nomatch h.2.1).symm⟩
        · obtain ⟨hframe, hstation, hverification⟩ := entered.judge_accepts (x := .scale b x)
            ((if_pos hv).trans ((resolve_scale b x _).trans (if_pos hlimits)))
          refine ⟨_, hjudged, hframe, hstation, fun c => ?_⟩
          rw [hverification, Verification.rejoined_scale]
          by_cases hc : c = a
          · simp only [hc, true_and, if_true]
          · simp only [hc, false_and, if_false]
      · obtain ⟨hframe, hstation, hnotice⟩ := entered.judge_refuses (Station.announced_none hscale hstencil hbin)
        exact ⟨_, hjudged, hframe, hstation, hnotice⟩

end Sys2Proof.Machine
end

section
/-! PROOFS. The loss of an ACTIVE station (O55): the grant, the mark and the test in flight, and then the lanes that
name the station, each taken once. -/

namespace Sys2Proof.Machine

/-! ## The grant in flight (R58) -/

/-- A component of a CHARGING bulk when bin `a` is lost. -/
def Component.afterLoss (c : Component) (a : Nat) : Component := if c.bin = a then c.loseGrant else c

/-- A bulk when bin `a` is lost. -/
def Bulk.afterLoss (b : Bulk) (a : Nat) : Bulk := { b with components := b.components.map (·.afterLoss a) }

theorem Component.afterLoss_of_not_granted {c : Component} {a : Nat} (h : (c.bin == a && c.granted) = false) :
    c.afterLoss a = c := by
  unfold Component.afterLoss
  split
  · next hbin =>
    rw [Component.loseGrant_eq]
    split
    · next g hg => simp [hbin, Component.granted, hg] at h
    · rfl
  · rfl

theorem Bulk.afterLoss_of_not_granted {b : Bulk} {a : Nat}
    (h : ¬ b.components.any (fun c => c.bin == a && c.granted) = true) : b.afterLoss a = b := by
  have hall : ∀ c ∈ b.components, c.afterLoss a = c := fun c hc =>
    Component.afterLoss_of_not_granted (Bool.eq_false_iff.mpr fun hg => h (List.any_eq_true.mpr ⟨c, hc, hg⟩))
  rw [Bulk.afterLoss, List.map_congr_left hall, List.map_id']

/-- The bulk that names a bin is the one in its slot. -/
theorem State.bulkOf_bulk? {s : State} (hs : s.bulks.sorted = true) {a k : Nat} {b : Bulk}
    (h : s.bulkOf a = some (k, b)) : s.bulk? k = some b :=
  Table.get?_of_mem hs (Table.find_some h).1

theorem State.loseBin_eq (s : State) (a : Nat) :
    s.loseBin a = { s with bulks := (s.loseBin a).bulks, notices := (s.loseBin a).notices } := by
  unfold State.loseBin
  split
  · rfl
  · split <;> rfl

theorem State.loseBin_bulk? {s : State} (hs : s.bulks.sorted = true) (a k : Nat) : (s.loseBin a).bulk? k =
    if (s.bulkOf a).map (·.1) = some k then (s.bulk? k).map (·.afterLoss a) else s.bulk? k := by
  unfold State.loseBin
  cases hof : s.bulkOf a with
  | none => rfl
  | some e =>
    obtain ⟨i, b⟩ := e
    have hb := State.bulkOf_bulk? hs hof
    simp only [Option.map_some, Option.some.injEq]
    by_cases hany : b.components.any (fun c => c.bin == a && c.granted) = true
    · rw [if_pos hany, State.raise_bulkOf, State.modBulk_bulk?]
      by_cases hk : k = i
      · subst hk
        rw [if_pos rfl, if_pos rfl]
        rfl
      · rw [if_neg hk, if_neg (Ne.symm hk)]
    · rw [if_neg hany]
      split
      · next hk =>
        subst hk
        rw [hb, Option.map_some, Bulk.afterLoss_of_not_granted hany]
      · rfl

theorem State.loseBin_notice (s : State) (a : Nat) (j : NoticeKind) (hj : j ≠ .chargeUncertain) :
    (s.loseBin a).notice j = s.notice j := by
  unfold State.loseBin
  split
  · rfl
  · split
    · rw [State.raise_notice, if_neg hj, State.modBulk_notice]
    · rfl

theorem State.loseBin_chargeUncertain (s : State) (a : Nat) : (s.loseBin a).notice .chargeUncertain =
    (s.bulkOf a).elim (s.notice .chargeUncertain) fun e =>
      if e.2.components.any (fun c => c.bin == a && c.granted) then (s.notice .chargeUncertain).raised (some e.1)
      else s.notice .chargeUncertain := by
  unfold State.loseBin
  cases s.bulkOf a with
  | none => rfl
  | some e =>
    dsimp only [Option.elim_some]
    split
    · rw [State.raise_self, State.modBulk_notice]
    · rfl

section Kept

variable (s : State) (a b : Nat)

theorem State.loseBin_station : (s.loseBin a).station b = s.station b := by rw [State.loseBin_eq]; rfl
theorem State.loseBin_wait : (s.loseBin a).wait b = s.wait b := by rw [State.loseBin_eq]; rfl
theorem State.loseBin_verification : (s.loseBin a).verification b = s.verification b := by rw [State.loseBin_eq]; rfl
theorem State.loseBin_head : (s.loseBin a).head b = s.head b := by rw [State.loseBin_eq]; rfl
theorem State.loseBin_chestOf : (s.loseBin a).chest? b = s.chest? b := by rw [State.loseBin_eq]; rfl

variable (r : PauseReason)

theorem State.cutMark_station : (s.cutMark a r).station b = s.station b :=
  congrArg (fun t => t.station b) (s.cutMark_eq a r)
theorem State.cutMark_wait : (s.cutMark a r).wait b = s.wait b :=
  congrArg (fun t => t.wait b) (s.cutMark_eq a r)
theorem State.cutMark_verification : (s.cutMark a r).verification b = s.verification b :=
  congrArg (fun t => t.verification b) (s.cutMark_eq a r)
theorem State.cutMark_bulkOf : (s.cutMark a r).bulk? b = s.bulk? b :=
  congrArg (fun t => t.bulk? b) (s.cutMark_eq a r)

end Kept

/-! ## The loss up to the lanes (R150, R58, R124, R140) -/

/-- The station's own part of its loss, its notice and the end of its call's wait. -/
def State.lostAlone (s : State) (a : Nat) : State :=
  ((s.modStation a Station.lose).raise .stationLost (some a)).setWait a .none

/-- The loss of station `a` with the work in flight of its bin, its head and its test, its lanes not yet reached. -/
def State.lostWork (s : State) (a : Nat) : State :=
  let t := ((s.lostAlone a).loseBin a).cutMark a .lost
  t.setVerification a (t.verification a).testCut

theorem State.lose_stages (s : State) (a : Nat) : s.lose a = (s.lostWork a).loseLanes a := rfl

theorem Verification.testCut_eq (v : Verification) : v.testCut =
    if v.state.isTesting = true then { v with state := .at .unverified, abilities := none } else v := by
  unfold Verification.testCut
  cases v.state <;> rfl

section Work

variable (s : State) (a : Nat)

theorem State.lostWork_eq :
    let t := s.lostWork a
    t = { s with
      stations := t.stations
      waits := t.waits
      bulks := t.bulks
      heads := t.heads
      chests := t.chests
      verifications := t.verifications
      notices := t.notices } := by
  unfold State.lostWork
  have hbin := (s.lostAlone a).loseBin_eq a
  have hmark := ((s.lostAlone a).loseBin a).cutMark_eq a .lost
  dsimp only at hmark ⊢
  generalize ((s.lostAlone a).loseBin a).cutMark a .lost = w at *
  generalize (s.lostAlone a).loseBin a = v at *
  rw [hmark, hbin]
  rfl

theorem State.lostWork_station (b : Nat) :
    (s.lostWork a).station b = if b = a then (s.station a).lose else s.station b := by
  rw [State.lostWork, State.setVerification_station, State.cutMark_station, State.loseBin_station, State.lostAlone,
    State.setWait_station, State.raise_station, State.modStation_station]

theorem State.lostWork_wait (b : Nat) : (s.lostWork a).wait b = if b = a then .none else s.wait b := by
  rw [State.lostWork, State.setVerification_wait, State.cutMark_wait, State.loseBin_wait, State.lostAlone,
    State.setWait_wait, State.raise_wait, State.modStation_wait]

theorem State.lostWork_verification (b : Nat) : (s.lostWork a).verification b =
    if b = a ∧ (s.verification a).state.isTesting = true
    then { s.verification a with state := .at .unverified, abilities := none } else s.verification b := by
  have hkept (b : Nat) : (((s.lostAlone a).loseBin a).cutMark a .lost).verification b = s.verification b := by
    rw [State.cutMark_verification, State.loseBin_verification]; rfl
  rw [State.lostWork, State.setVerification_verification, hkept, hkept, Verification.testCut_eq]
  by_cases hb : b = a
  · simp only [hb, if_true, true_and]
  · simp only [hb, if_false, false_and]

theorem State.lostWork_head (b : Nat) : (s.lostWork a).head b = if b = a ∧ (s.head a).message.isSome
    then { s.head a with message := none, reply := none, state := .paused .lost, oneMark := false } else s.head b := by
  rw [State.lostWork, State.setVerification_head, State.cutMark_head, State.loseBin_head, State.loseBin_head]
  rfl

theorem State.lostWork_chest? (id : Nat) : (s.lostWork a).chest? id = if (s.head a).cutChest = some id
    then (s.chest? id).map (fun c => { c with mark := .uncertain }) else s.chest? id := by
  rw [State.lostWork, State.setVerification_chestOf, State.cutMark_chest?, State.loseBin_head, State.loseBin_chestOf]
  rfl

theorem State.lostWork_bulk? (hs : s.bulks.sorted = true) (k : Nat) : (s.lostWork a).bulk? k =
    if (s.bulkOf a).map (·.1) = some k then (s.bulk? k).map (·.afterLoss a) else s.bulk? k := by
  rw [State.lostWork, State.setVerification_bulkOf, State.cutMark_bulkOf,
    State.loseBin_bulk? (s := s.lostAlone a) hs]
  rfl

theorem State.lostWork_notice (j : NoticeKind) : (s.lostWork a).notice j =
    if j = .markUncertain ∧ (s.head a).message.isSome then (((s.lostAlone a).loseBin a).notice j).raised (some a)
    else ((s.lostAlone a).loseBin a).notice j := by
  rw [State.lostWork, State.setVerification_notice, State.cutMark_notice, State.loseBin_head]
  rfl

theorem State.lostAlone_notice (j : NoticeKind) : (s.lostAlone a).notice j =
    if j = .stationLost then (s.notice j).raised (some a) else s.notice j := by
  rw [State.lostAlone, State.setWait_notice, State.raise_notice, State.modStation_notice, State.modStation_notice]
  split
  · next hj => rw [hj]
  · rfl

theorem State.lostWork_notice_other {j : NoticeKind} (hlost : j ≠ .stationLost) (hcharge : j ≠ .chargeUncertain)
    (hmark : j ≠ .markUncertain) : (s.lostWork a).notice j = s.notice j := by
  rw [State.lostWork_notice, if_neg fun h => hmark h.1, State.loseBin_notice _ a j hcharge, State.lostAlone_notice,
    if_neg hlost]

theorem State.lostWork_stationLost :
    (s.lostWork a).notice .stationLost = (s.notice .stationLost).raised (some a) := by
  rw [State.lostWork_notice, if_neg (by simp), State.loseBin_notice _ a _ (by decide), State.lostAlone_notice,
    if_pos rfl]

theorem State.lostWork_markUncertain : (s.lostWork a).notice .markUncertain =
    if (s.head a).message.isSome then (s.notice .markUncertain).raised (some a) else s.notice .markUncertain := by
  have hkept : ((s.lostAlone a).loseBin a).notice .markUncertain = s.notice .markUncertain := by
    rw [State.loseBin_notice _ a _ (by decide), State.lostAlone_notice, if_neg (by decide)]
  simp only [State.lostWork_notice, hkept, true_and]

theorem State.lostWork_chargeUncertain : (s.lostWork a).notice .chargeUncertain =
    (s.bulkOf a).elim (s.notice .chargeUncertain) fun e =>
      if e.2.components.any (fun c => c.bin == a && c.granted) then (s.notice .chargeUncertain).raised (some e.1)
      else s.notice .chargeUncertain := by
  rw [State.lostWork_notice, if_neg (by simp), State.loseBin_chargeUncertain, State.lostAlone_notice,
    if_neg (by decide)]
  rfl

end Work

/-! ## Lanes taken one after the other, each once -/

/-- Lane `n` becomes HELD when the lanes change by `f`. -/
def State.falls (s : State) (f : Lane → Lane) (n : Nat) : Bool :=
  (s.lane? n).any fun l => !l.state.isHeld && (f l).state.isHeld

/-- From `s` to `t` lane `n` changes by `f` if it is mapped, LANE_HELD is raised where it becomes HELD by that, and
nothing else changes (R80). -/
structure State.LaneTaken (s t : State) (n : Nat) (f : Lane → Lane) : Prop where
  frame : t = { s with lanes := t.lanes, notices := t.notices }
  lane : ∀ m, t.lane? m = if m = n then (s.lane? n).map f else s.lane? m
  notice : ∀ j, t.notice j = if j = .laneHeld ∧ s.falls f n = true then (s.notice j).raised (some n) else s.notice j

theorem State.falls_some {s : State} {f : Lane → Lane} {n : Nat} {l : Lane} (hl : s.lane? n = some l) :
    s.falls f n = (!l.state.isHeld && (f l).state.isHeld) := by
  rw [State.falls, hl, Option.any_some]

namespace State.LaneTaken

variable {s t : State} {n : Nat} {f : Lane → Lane} {l l' : Lane}

theorem unmapped (hl : s.lane? n = none) : s.LaneTaken s n f where
  frame := rfl
  lane m := by
    split
    · next hm => rw [hm, hl]; rfl
    · rfl
  notice j := by rw [if_neg]; rintro ⟨-, h⟩; rw [State.falls, hl] at h; exact nomatch h

/-- A lane that turns, where its state changes exactly when it becomes HELD. -/
theorem of_turns (h : s.LaneTurns t n l l') (hl : s.lane? n = some l) (hf : f l = l')
    (hheld : l'.state ≠ l.state ↔ l.state.isHeld = false ∧ l'.state.isHeld = true) : s.LaneTaken t n f where
  frame := h.frame
  lane m := by rw [h.lane m, hl, Option.map_some, hf]
  notice j := by
    simp only [h.notice j, State.falls_some hl, hf, hheld, Bool.and_eq_true, Bool.not_eq_true']

/-- A lane that changes without a notice, as it is HELD before or not after. -/
theorem of_quiet (hframe : t = { s with lanes := t.lanes }) (h : s.laneBecomes t n l') (hl : s.lane? n = some l)
    (hf : f l = l') (hheld : l'.state.isHeld = true → l.state.isHeld = true) : s.LaneTaken t n f where
  frame := by rw [hframe]
  lane m := by rw [h m, hl, Option.map_some, hf]
  notice j := by
    have hno : ¬ s.falls f n = true := by
      rw [State.falls_some hl, hf, Bool.and_eq_true, Bool.not_eq_true']
      rintro ⟨hbefore, hafter⟩
      exact Bool.eq_false_iff.mp hbefore (hheld hafter)
    rw [if_neg fun h => hno h.2, hframe]
    rfl

end State.LaneTaken

/-- Lanes of different numbers, each taken by a step that leaves the waits. -/
theorem State.lanesTaken {op : State → Nat → State} {f : Lane → Lane} {w : Table WaitKind}
    (hop : ∀ (t : State) (n : Nat), t.waits = w → t.LaneTaken (op t n) n f) (ns : List Nat) (hn : ns.Nodup) (s : State)
    (hs : s.waits = w) :
    let t := ns.foldl op s
    t = { s with lanes := t.lanes, notices := t.notices } ∧
    (∀ m, t.lane? m = if m ∈ ns then (s.lane? m).map f else s.lane? m) ∧
    ∀ j, t.notice j = if j = .laneHeld then (s.notice j).raisedFor (ns.filter (s.falls f)) else s.notice j := by
  induction ns generalizing s with
  | nil => exact ⟨rfl, fun m => by simp, fun j => by simp [Notice.raisedFor]⟩
  | cons n ns ih =>
    obtain ⟨hnew, hn⟩ := List.nodup_cons.mp hn
    have first := hop s n hs
    obtain ⟨hframe, hlane, hnotice⟩ := ih hn (op s n) (by rw [first.frame]; exact hs)
    have hlater (m : Nat) (hm : m ∈ ns) : (op s n).lane? m = s.lane? m := by
      rw [first.lane, if_neg (ne_of_mem_of_not_mem hm hnew)]
    have hfalls : ns.filter ((op s n).falls f) = ns.filter (s.falls f) :=
      List.filter_congr fun m hm => by rw [State.falls, hlater m hm]; rfl
    have hfirst := first.frame
    dsimp only at hframe hlane hnotice ⊢
    rw [List.foldl_cons]
    refine ⟨?_, fun m => ?_, fun j => ?_⟩
    · generalize ns.foldl op (op s n) = t at *
      generalize op s n = u at *
      rw [hframe, hfirst]
    · rw [hlane, first.lane]
      by_cases hm : m = n
      · simp [hm, hnew]
      · simp [hm]
    · rw [hnotice, hfalls, first.notice]
      by_cases hj : j = .laneHeld
      · by_cases hf : s.falls f n = true
        · simp [hj, hf, Notice.raisedFor]
        · simp [hj, hf]
      · simp [hj]

/-! ## The lanes that name the station (R80, R83) -/

/-- The cause that the loss of station `a` gives a lane. -/
def Lane.lossCause (l : Lane) (a : Nat) : Option LaneHold :=
  if l.scale = a then some .scaleAbsent
  else match l.target with
    | .lot _ u => if u = a then some .headAbsent else none
    | .hold => none

/-- A lane after the loss of station `a`, by whether it has work in flight then. -/
def Lane.afterLoss (l : Lane) (a : Nat) (busy : Bool) : Lane :=
  match l.state, l.lossCause a with
  | .running, some u =>
    if busy then { l with state := .holdPending u, oneShot := false } else { l with state := .held u, oneShot := false }
  | .holdPending u, some .scaleAbsent => if l.tentative = none then { l with state := .held u } else l
  | _, _ => l

/-- The step of a loss at one lane number. -/
def State.loseLane (a : Nat) (t : State) (n : Nat) : State :=
  match t.lane? n with
  | none => t
  | some l =>
    if l.scale = a then (t.holdCause n .scaleAbsent true).settleLane n
    else match l.target with
      | .lot _ stencil => if stencil = a then t.holdCause n .headAbsent true else t
      | .hold => t

theorem State.holdLanesOf_eq_foldl (s : State) (a : Nat) :
    s.holdLanesOf a = laneNumbers.foldl (State.loseLane a) s := rfl

section Lost

variable {l : Lane} {a : Nat} {u : LaneHold}

theorem Lane.afterLoss_unnamed (h : l.lossCause a = none) (busy : Bool) : l.afterLoss a busy = l := by
  unfold Lane.afterLoss
  rw [h]
  cases l.state <;> rfl

/-- A lane with work in flight that the loss does not end. -/
theorem Lane.afterLoss_busy (h : l.lossCause a = some u) (ht : u = .scaleAbsent → l.tentative ≠ none) :
    l.afterLoss a true = if l.state = .running then { l with state := .holdPending u, oneShot := false } else l := by
  unfold Lane.afterLoss
  rw [h]
  cases hst : l.state with
  | running => rfl
  | held r => rfl
  | holdPending r =>
    cases u with
    | scaleAbsent => exact if_neg (ht rfl)
    | _ => rfl

/-- The lane of the lost scale, with no tentative chest: its waiting call is gone. -/
theorem Lane.afterLoss_scale (h : l.lossCause a = some .scaleAbsent) (ht : l.tentative = none) :
    l.afterLoss a false = l.stopped .scaleAbsent := by
  unfold Lane.afterLoss
  rw [h]
  obtain ⟨state, target, scale, mode, cls, pending, watch, oneShot, tentative⟩ := l
  obtain rfl : tentative = none := ht
  cases state <;> rfl

/-- A lane of the lost stencil station, with no work in flight. -/
theorem Lane.afterLoss_head (h : l.lossCause a = some .headAbsent) : l.afterLoss a false = l.caused .headAbsent := by
  unfold Lane.afterLoss Lane.caused
  rw [h]
  cases l.state <;> rfl

theorem Lane.stopped_held (l : Lane) (r : LaneHold) :
    (l.stopped r).state ≠ l.state ↔ l.state.isHeld = false ∧ (l.stopped r).state.isHeld = true := by
  unfold Lane.stopped
  cases l.state <;> simp [LaneState.isHeld]

theorem Lane.caused_held (l : Lane) (r : LaneHold) :
    (l.caused r).state ≠ l.state ↔ l.state.isHeld = false ∧ (l.caused r).state.isHeld = true := by
  unfold Lane.caused
  cases hst : l.state <;> simp [LaneState.isHeld, hst]

end Lost

theorem State.loseLane_lossCause {t : State} {a n : Nat} {l : Lane} (hl : t.lane? n = some l) : t.loseLane a n =
    match l.lossCause a with
    | some .scaleAbsent => (t.holdCause n .scaleAbsent true).settleLane n
    | some u => t.holdCause n u true
    | none => t := by
  unfold State.loseLane Lane.lossCause
  rw [hl]
  by_cases hs : l.scale = a
  · simp only [hs, if_true]
  · simp only [hs, if_false]
    cases l.target with
    | hold => rfl
    | lot k u => by_cases hu : u = a <;> simp [hu]

theorem Lane.lossCause_cases (l : Lane) (a : Nat) : l.lossCause a = none ∨
    l.lossCause a = some .scaleAbsent ∧ l.scale = a ∨ l.lossCause a = some .headAbsent := by
  unfold Lane.lossCause
  by_cases hs : l.scale = a
  · exact .inr (.inl ⟨if_pos hs, hs⟩)
  · rw [if_neg hs]
    cases l.target with
    | hold => exact .inl rfl
    | lot k u =>
      by_cases hu : u = a
      · exact .inr (.inr (if_pos hu))
      · exact .inl (if_neg hu)

/-- A hold cause that finds work in flight leaves the lane HOLD_PENDING, so not HELD. -/
theorem State.holdCause_taken_busy {t : State} {n : Nat} {l : Lane} {r : LaneHold} {f : Lane → Lane}
    (hl : t.lane? n = some l) (hbusy : t.workInFlight l = true)
    (hf : f l = if l.state = .running then { l with state := .holdPending r, oneShot := false } else l) :
    t.LaneTaken (t.holdCause n r true) n f := by
  obtain ⟨hframe, hlane⟩ := State.holdCause_busy hl hbusy r true
  refine .of_quiet hframe hlane hl hf fun h => ?_
  split at h
  · exact nomatch h
  · exact h

/-- One lane number: with the wait of the lost station's call ended, its lane changes by its work in flight. -/
theorem State.loseLane_taken {t : State} {a : Nat} (n : Nat) (hw : t.wait a = .none) :
    t.LaneTaken (t.loseLane a n) n fun l => l.afterLoss a (t.workInFlight l) := by
  cases hl : t.lane? n with
  | none =>
    have hsame : t.loseLane a n = t := by unfold State.loseLane; rw [hl]
    rw [hsame]
    exact .unmapped hl
  | some l =>
    rw [State.loseLane_lossCause hl]
    rcases l.lossCause_cases a with hu | ⟨hu, hscale⟩ | hu
    · rw [hu]
      exact .of_quiet rfl (State.LaneTurns.refl hl).lane hl (Lane.afterLoss_unnamed hu _) id
    · rw [hu]
      by_cases ht : l.tentative = none
      · have hidle : t.idle l := ⟨ht, by rw [hscale, hw]⟩
        refine .of_turns (State.stop_turns hl hidle .scaleAbsent) hl ?_ (l.stopped_held _)
        rw [State.workInFlight_idle.mpr hidle]
        exact Lane.afterLoss_scale hu ht
      · have hbusy : t.workInFlight l = true := State.workInFlight_iff.mpr (.inl ht)
        have hpending := ((State.holdCause_busy hl hbusy .scaleAbsent true).2 n).trans (if_pos rfl)
        have hsettle : (t.holdCause n .scaleAbsent true).settleLane n = t.holdCause n .scaleAbsent true := by
          refine State.settleLane_of_busy hpending (.inl ?_)
          split
          · exact ht
          · exact ht
        change t.LaneTaken ((t.holdCause n .scaleAbsent true).settleLane n) n _
        rw [hsettle]
        exact State.holdCause_taken_busy hl hbusy (by rw [hbusy]; exact Lane.afterLoss_busy hu fun _ => ht)
    · rw [hu]
      by_cases hbusy : t.workInFlight l = true
      · exact State.holdCause_taken_busy hl hbusy (by rw [hbusy]; exact Lane.afterLoss_busy hu nofun)
      · have hidle := State.workInFlight_idle.mp (Bool.eq_false_iff.mpr hbusy)
        refine .of_turns (State.holdCause_turns hl hidle .headAbsent) hl ?_ (l.caused_held _)
        rw [State.workInFlight_idle.mpr hidle]
        exact Lane.afterLoss_head hu

/-! ## The lanes of a loss -/

/-- What the lanes' part of a loss leaves, with the wait of the lost station's call ended. -/
theorem State.loseLanes_spec {s : State} {a : Nat} (hw : s.wait a = .none) :
    let f (l : Lane) : Lane := l.afterLoss a (s.workInFlight l)
    let t := s.loseLanes a
    t = { s with lanes := t.lanes, notices := t.notices } ∧
    (∀ n, t.lane? n = if 1 ≤ n ∧ n ≤ 8 then (s.lane? n).map f else s.lane? n) ∧
    (∀ j, j ≠ .laneHeld → t.notice j = s.notice j) ∧
    s.raisesAmong t .laneHeld (laneNumbers.filter (s.falls f)) := by
  intro f
  have step (t : State) (n : Nat) (ht : t.waits = s.waits) : t.LaneTaken (t.loseLane a n) n f := by
    have hwait (b : Nat) : t.wait b = s.wait b := by rw [State.wait, ht]; rfl
    have hbusy (l : Lane) : t.workInFlight l = s.workInFlight l := by rw [State.workInFlight, hwait]; rfl
    have taken := State.loseLane_taken n ((hwait a).trans hw)
    simp only [hbusy] at taken
    exact taken
  obtain ⟨hframe, hlane, hnotice⟩ := State.lanesTaken step laneNumbers laneNumbers_nodup s rfl
  rw [← State.holdLanesOf_eq_foldl] at hframe hlane hnotice
  have hfell : laneNumbers.filter (fun n =>
      (s.holdLanesOf a).laneIs n (fun l => l.state.isHeld) && !s.laneIs n (fun l => l.state.isHeld)) =
      laneNumbers.filter (s.falls f) := by
    refine List.filter_congr fun n hn => ?_
    rw [State.laneIs, State.laneIs, hlane, if_pos hn, State.falls]
    cases s.lane? n with
    | none => rfl
    | some l => exact Bool.and_comm _ _
  have hlose : s.loseLanes a = (s.holdLanesOf a).lastSource .laneHeld (laneNumbers.filter (s.falls f)) := by
    unfold State.loseLanes
    dsimp only
    rw [hfell]
  rw [hlose]
  generalize s.holdLanesOf a = u at *
  obtain ⟨hlast, hother, -⟩ := u.lastSource_spec .laneHeld (laneNumbers.filter (s.falls f))
  refine ⟨?_, fun n => ?_, fun j hj => ?_, ?_⟩
  · rw [hlast, hframe]
  · rw [hlast]
    exact (hlane n).trans (by simp only [mem_laneNumbers])
  · rw [hother j hj, hnotice, if_neg hj]
  · exact State.raisesAmong_lastSource (by rw [hnotice, if_pos rfl])

/-- A component of a bulk after a loss, claim by claim. -/
theorem Component.afterLoss_eq (c : Component) (a : Nat) : c.afterLoss a = match c.claim with
    | .grant g => if c.bin = a then { c with claim := .uncertain g } else c
    | .none => c
    | .uncertain _ => c := by
  unfold Component.afterLoss
  rw [Component.loseGrant_eq]
  cases c.claim with
  | grant g => rfl
  | none => exact ite_self c
  | uncertain m => exact ite_self c

/-- A bulk after a loss, claim by claim. -/
theorem Bulk.afterLoss_eq (b : Bulk) (a : Nat) : b.afterLoss a = { b with components := b.components.map fun c =>
    match c.claim with
    | .grant g => if c.bin = a then { c with claim := .uncertain g } else c
    | .none => c
    | .uncertain _ => c } :=
  congrArg (fun f => { b with components := b.components.map f }) (funext fun c => c.afterLoss_eq a)

/-- Settles O55: the work in flight, which the lanes do not touch, and then the lanes. -/
theorem stationIsLost : Obligations.StationIsLost := by
  intro s a hp h1 h14 hj hsilence hc hrange h v hit busy after
  have hbulks : s.bulks.sorted = true := by
    obtain ⟨-, -, hbulks, -⟩ := s.canonical_iff.mp hc
    exact hbulks
  have hexec : exec (.stationLost a) s = .next ((s.lostWork a).loseLanes a) := by
    rw [← s.lose_stages]
    exact congrArg Host.Outcome.next (atStation_enabled hp h1 h14 (by simp [hj, Config.lossSilence, hsilence]))
  have hwork := s.lostWork_eq a
  have hwait := s.lostWork_wait a
  have hafter (l : Lane) : l.afterLoss a ((s.lostWork a).workInFlight l) = after l := by
    have hbusy : (s.lostWork a).workInFlight l = busy l := by
      rw [State.workInFlight, hwait]
      by_cases hs : l.scale = a
      · simp [busy, hs]
      · rw [if_neg hs]
        change _ = (l.tentative.isSome || (l.scale != a && s.wait l.scale != .none))
        rw [bne_iff_ne.mpr hs, Bool.true_and]
    rw [hbusy]
    rfl
  have hcut (id : Nat) : h.cutChest = some id ↔ h.message.isSome ∧ (h.queue.head?.map Job.chest) = some id := by
    unfold Head.cutChest
    by_cases hm : h.message.isSome = true <;> simp [hm]
  obtain ⟨hlanes, hlane, hother, hheld⟩ := State.loseLanes_spec ((hwait a).trans (if_pos rfl))
  have hslane (n : Nat) : (s.lostWork a).lane? n = s.lane? n := by rw [hwork]; rfl
  have hquiet := s.lostWork_notice_other a (j := .laneHeld) (by decide) (by decide) (by decide)
  have hfalls : (s.lostWork a).falls after = s.falls after := funext fun n => by rw [State.falls, hslane]; rfl
  simp only [hafter, hslane, hfalls, State.raisesAmong, hquiet] at hlane hheld
  have hstation := s.lostWork_station a
  have hverification := s.lostWork_verification a
  have hhead := s.lostWork_head a
  have hchest := s.lostWork_chest? a
  have hbulk := s.lostWork_bulk? a hbulks
  have hsame := fun j => s.lostWork_notice_other a (j := j)
  have hlost := s.lostWork_stationLost a
  have hmark := s.lostWork_markUncertain a
  have hcharge := s.lostWork_chargeUncertain a
  generalize (s.lostWork a).loseLanes a = t at *
  generalize s.lostWork a = u at *
  refine ⟨t, hexec, ?_, fun b => ?_, fun b => ?_, fun b => ?_, fun b => ?_, fun id => ?_, fun k => ?_, fun n => ?_,
    fun k hk1 hk2 hk3 hk4 => ?_, hheld, ?_, ?_, ?_⟩
  · rw [hlanes, hwork]
  · rw [hlanes]; exact hstation b
  · rw [hlanes]; exact hwait b
  · rw [hlanes]; exact hverification b
  · rw [hlanes]; exact hhead b
  · rw [hlanes]; exact (hchest id).trans (by simp only [← hcut]; rfl)
  · rw [hlanes]
    exact (hbulk k).trans (if_congr Iff.rfl (congrArg (Option.map · _) (funext fun b => b.afterLoss_eq a)) rfl)
  · rw [hlane]
    split
    · rfl
    · next hn =>
      cases hl : s.lane? n with
      | none => rfl
      | some l => exact absurd (hrange n l hl) hn
  · rw [hother k hk4, hsame k hk1 hk2 hk3]
  · rw [hother _ (by decide), hlost]
  · rw [hother _ (by decide), hmark]
  · rw [hother _ (by decide), hcharge]
    cases s.bulkOf a <;> rfl

end Sys2Proof.Machine
end

section
/-! PROOFS. A link cycle (O52): the time gone by and the slots turned, what the arbiter sends in each slot and what its
sending changes, and the fourteen slots one after the other, none of which changes what another sends. -/

namespace Sys2Proof.Machine

/-! ## Time and slots (R144, R145, R147, R149, R150; assumptions 3, 4) -/

/-- A timer after the time that a cycle stands for: none before the first. -/
def State.later (s : State) (x : Nat) : Nat := if s.cycle = none then x else x - 4

/-- A head whose timers have changed by `f`. -/
def Head.timed (h : Head) (f : Nat → Nat) : Head := { h with interval := h.interval.map f, reply := h.reply.map f }

/-- A verification record whose running timer has changed by `f`. -/
def Verification.timed (w : Verification) (f : Nat → Nat) : Verification :=
  { w with state := match w.state with
      | .at (.verified x) => .at (.verified (f x))
      | .at (.due (.running x)) => .at (.due (.running (f x)))
      | other => other }

theorem Head.elapse_eq (h : Head) : h.elapse = h.timed (· - 4) := rfl

theorem Verification.elapse_eq (w : Verification) : w.elapse = w.timed (· - 4) := by
  unfold Verification.elapse Verification.timed
  rcases w.state with (_ | _ | (_ | _) | _) | _ <;> rfl

theorem Head.timed_id (h : Head) : h.timed (fun x => x) = h := by
  simp only [Head.timed, Option.map_id']

theorem Verification.timed_id (w : Verification) : w.timed (fun x => x) = w := by
  unfold Verification.timed
  rcases w with ⟨(_ | _ | (_ | _) | _) | _, _⟩ <;> rfl

/-- The time at one station address. -/
def State.elapseAt (s : State) (a : Nat) : State :=
  (s.modHead a Head.elapse).setVerification a (s.verification a).elapse

theorem State.elapse_eq_foldl (s : State) : s.elapse =
    addresses.foldl State.elapseAt { s with purgeTimer := s.purgeTimer.map (· - 4) } := rfl

/-- A change of heads and verification records, address by address, changes nothing else. -/
theorem State.elapseAt_frame (as : List Nat) (s : State) :
    let t := as.foldl State.elapseAt s
    t = { s with heads := t.heads, verifications := t.verifications } := by
  induction as generalizing s with
  | nil => rfl
  | cons a as ih =>
    have rest := ih (s.elapseAt a)
    dsimp only at rest ⊢
    rw [List.foldl_cons]
    generalize as.foldl State.elapseAt _ = t at rest ⊢
    rw [rest]; rfl

theorem State.elapse_frame (s : State) : s.elapse = { s with
    purgeTimer := s.purgeTimer.map (· - 4)
    heads := s.elapse.heads
    verifications := s.elapse.verifications } := by
  have h := State.elapseAt_frame addresses { s with purgeTimer := s.purgeTimer.map (· - 4) }
  dsimp only at h
  rwa [← State.elapse_eq_foldl] at h

theorem State.elapse_head (s : State) (a : Nat) :
    s.elapse.head a = if 1 ≤ a ∧ a ≤ 14 then (s.head a).timed (· - 4) else s.head a := by
  rw [State.elapse_eq_foldl, foldl_at (fun _ => True) State.head (fun _ h => h.elapse) State.elapseAt (fun _ _ h => h)
    (fun t b _ => by rw [State.elapseAt, State.setVerification_head, State.modHead_self])
    (fun t b c hc => by rw [State.elapseAt, State.setVerification_head, State.modHead_head, if_neg hc])
    addresses addresses_nodup _ trivial a]
  simp only [mem_addresses, Head.elapse_eq]
  rfl

theorem State.elapse_verification (s : State) (a : Nat) : s.elapse.verification a =
    if 1 ≤ a ∧ a ≤ 14 then (s.verification a).timed (· - 4) else s.verification a := by
  rw [State.elapse_eq_foldl, foldl_at (fun _ => True) State.verification (fun _ w => w.elapse) State.elapseAt
    (fun _ _ h => h) (fun t b _ => by rw [State.elapseAt, State.setVerification_self])
    (fun t b c hc => by
      rw [State.elapseAt, State.setVerification_verification, if_neg hc, State.modHead_verification])
    addresses addresses_nodup _ trivial a]
  simp only [mem_addresses, Verification.elapse_eq]
  rfl

/-- The slots turned at each station address change the stations alone. -/
theorem State.turnSlots_frame (s : State) : s.turnSlots = { s with stations := s.turnSlots.stations } := by
  have key (as : List Nat) (s : State) :
      let t := as.foldl (fun t a => t.modStation a fun v => v.closeSlot.openSlot) s
      t = { s with stations := t.stations } := by
    induction as generalizing s with
    | nil => rfl
    | cons a as ih =>
      have rest := ih (s.modStation a fun v => v.closeSlot.openSlot)
      dsimp only at rest ⊢
      rw [List.foldl_cons]
      generalize as.foldl (fun (t : State) a => t.modStation a fun v => v.closeSlot.openSlot) _ = t at rest ⊢
      rw [rest]; rfl
  exact key addresses s

theorem State.turnSlots_station (s : State) (a : Nat) : s.turnSlots.station a =
    if 1 ≤ a ∧ a ≤ 14 then (s.station a).closeSlot.openSlot else s.station a := by
  unfold State.turnSlots
  rw [foldl_at (fun _ => True) State.station (fun _ v => v.closeSlot.openSlot) _ (fun _ _ h => h)
    (fun t b _ => t.modStation_self b _) (fun t b c hc => by rw [State.modStation_station, if_neg hc])
    addresses addresses_nodup s trivial a]
  simp only [mem_addresses]

/-- The state as the slots of a new cycle find it. -/
def State.turned (s : State) : State := (if s.cycle.isSome then s.elapse else s).turnSlots

theorem linkCycle_eq {s : State} (hp : s.part ≠ .retain) : linkCycle s = { (s.turned.sendSlots addresses).1 with
    cycle := some (nextCycle s.cycle)
    linkOut := cycleHead (nextCycle s.cycle) :: (s.turned.sendSlots addresses).2 } := by
  unfold linkCycle State.turned
  rw [if_neg hp]

/-- What a cycle finds in its slots. -/
theorem State.turned_spec (s : State) :
    let u := s.turned
    u = { s with
      purgeTimer := s.purgeTimer.map s.later
      stations := u.stations
      heads := u.heads
      verifications := u.verifications } ∧
    (∀ a, u.station a = if 1 ≤ a ∧ a ≤ 14 then (s.station a).closeSlot.openSlot else s.station a) ∧
    (∀ a, u.head a = if 1 ≤ a ∧ a ≤ 14 then (s.head a).timed s.later else s.head a) ∧
    ∀ a, u.verification a = if 1 ≤ a ∧ a ≤ 14 then (s.verification a).timed s.later else s.verification a := by
  unfold State.turned
  obtain hc | ⟨n, hc⟩ := Option.eq_none_or_eq_some s.cycle
  · have hlater : s.later = fun x => x := funext fun x => if_pos hc
    have hfirst : s.cycle.isSome = false := by rw [hc]; rfl
    have hframe := s.turnSlots_frame
    have hstation := s.turnSlots_station
    simp only [hfirst, Bool.false_eq_true, if_false, hlater, Option.map_id', Head.timed_id, Verification.timed_id,
      ite_self]
    generalize s.turnSlots = u at *
    refine ⟨?_, hstation, fun a => ?_, fun a => ?_⟩
    · rw [hframe]
    · rw [hframe]; rfl
    · rw [hframe]; rfl
  · have hlater : s.later = fun x => x - 4 := funext fun x => if_neg (by simp [hc])
    have hafter : s.cycle.isSome = true := by rw [hc]; rfl
    have hframe := s.elapse.turnSlots_frame
    have hstation := s.elapse.turnSlots_station
    have hbefore := s.elapse_frame
    have hhead := s.elapse_head
    have hverification := s.elapse_verification
    simp only [hafter, if_true, hlater]
    generalize s.elapse.turnSlots = u at *
    generalize s.elapse = e at *
    refine ⟨?_, fun a => ?_, fun a => ?_, fun a => ?_⟩
    · rw [hframe, hbefore]
    · rw [hstation, hbefore]; rfl
    · rw [hframe]; exact hhead a
    · rw [hframe]; exact hverification a

/-! ## What the arbiter sends in a slot (R152) -/

/-- What goes out in a slot: an answer, before `rest`; an order; the next word of a message; word 0 of a front job; a
POLL. -/
inductive Outbound where
  | answer (x : Answer) (rest : List Answer)
  | order (o : Order)
  | mark (m : Message)
  | dispatch (j : Job) (f : MarkFields)
  | poll

/-- The arbiter's choice, in its order (R152). -/
def State.chosen (s : State) (a : Nat) : Outbound :=
  match (s.station a).answers with
  | x :: rest => .answer x rest
  | [] => match (s.station a).order with
    | some o => .order o
    | none => match (s.head a).sending? with
      | some m => .mark m
      | none => match s.dispatchable a with
        | some (j, f) => .dispatch j f
        | none => .poll

namespace Outbound

/-- The state once it is sent to station `a`. -/
def send (s : State) (a : Nat) : Outbound → State
  | answer _ rest => s.setStation a { s.station a with answers := rest }
  | order o => (s.setStation a { s.station a with order := none }).setVerification a ((s.verification a).orderSent o)
  | mark m => s.modHead a (fun h => h.sendNext m (s.station a).printMs)
  | dispatch j f => s.dispatch a j f
  | poll => s

/-- The word sent to station `a`, of this join state. -/
def word (a : Nat) (j : Join) : Outbound → LinkWord
  | answer x _ => answerWord a x
  | order o => orderWord a o
  | mark m => markWord a m.fields m.next
  | dispatch _ f => markWord a f 0
  | poll => pollWord a j

/-- The station's entry once it is sent. -/
def station (v : Station) : Outbound → Station
  | answer _ rest => { v with answers := rest }
  | order _ => { v with order := none }
  | _ => v

/-- The head once it is sent, on a station of this print time. -/
def head (h : Head) (printMs : Nat) : Outbound → Head
  | mark m => h.sendNext m printMs
  | dispatch _ f => { h with state := .sending, message := some { fields := f, next := 1 } }
  | _ => h

/-- The verification record once it is sent. -/
def verification (w : Verification) : Outbound → Verification
  | order o => w.orderSent o
  | _ => w

/-- The chest whose message it starts. -/
def chest : Outbound → Option Nat
  | dispatch j _ => some j.chest
  | _ => none

end Outbound

section Chosen

variable {s : State} {a : Nat}

theorem State.chosen_answer {x : Answer} {rest : List Answer} (h : (s.station a).answers = x :: rest) :
    s.chosen a = .answer x rest := by
  simp only [State.chosen, h]

variable (ha : (s.station a).answers = [])
include ha

theorem State.chosen_order {o : Order} (h : (s.station a).order = some o) : s.chosen a = .order o := by
  simp only [State.chosen, ha, h]

variable (ho : (s.station a).order = none)
include ho

theorem State.chosen_mark {m : Message} (h : (s.head a).sending? = some m) : s.chosen a = .mark m := by
  simp only [State.chosen, ha, ho, h]

variable (hm : (s.head a).sending? = none)
include hm

theorem State.chosen_dispatch {j : Job} {f : MarkFields} (h : s.dispatchable a = some (j, f)) :
    s.chosen a = .dispatch j f := by
  simp only [State.chosen, ha, ho, hm, h]

theorem State.chosen_poll (h : s.dispatchable a = none) : s.chosen a = .poll := by
  simp only [State.chosen, ha, ho, hm, h]

end Chosen

theorem State.outbound_eq (s : State) (a : Nat) :
    s.outbound a = ((s.chosen a).send s a, (s.chosen a).word a (s.station a).join) := by
  unfold State.outbound
  dsimp only
  split
  · next x rest h => rw [State.chosen_answer h]; rfl
  · next ha =>
    split
    · next o ho => rw [State.chosen_order ha ho]; rfl
    · next ho =>
      split
      · next m hm => rw [State.chosen_mark ha ho hm]; rfl
      · next hm =>
        split
        · next j f hd => rw [State.chosen_dispatch ha ho hm hd]; rfl
        · next hd => rw [State.chosen_poll ha ho hm hd]; rfl

/-- The sending changes the records of its own address and the chest whose message it starts. -/
theorem Outbound.send_spec (s : State) (a : Nat) (o : Outbound) :
    let t := o.send s a
    t = { s with stations := t.stations, heads := t.heads, verifications := t.verifications, chests := t.chests } ∧
    (∀ b, t.station b = if b = a then o.station (s.station a) else s.station b) ∧
    (∀ b, t.head b = if b = a then o.head (s.head a) (s.station a).printMs else s.head b) ∧
    (∀ b, t.verification b = if b = a then o.verification (s.verification a) else s.verification b) ∧
    ∀ id, t.chest? id = if o.chest = some id then (s.chest? id).map (fun c => { c with mark := .inFlight })
      else s.chest? id := by
  have same {γ : Type} (r : Nat → γ) (b : Nat) : r b = if b = a then r a else r b := by
    split
    · next hb => rw [hb]
    · rfl
  cases o with
  | answer x rest =>
    exact ⟨rfl, fun b => s.setStation_station a b _, same s.head, same s.verification, fun id => rfl⟩
  | order o =>
    exact ⟨rfl, fun b => s.setStation_station a b _, same s.head,
      fun b => State.setVerification_verification _ a b _, fun id => rfl⟩
  | mark m => exact ⟨rfl, same s.station, fun b => s.modHead_head a b _, same s.verification, fun id => rfl⟩
  | poll => exact ⟨rfl, same s.station, same s.head, same s.verification, fun id => rfl⟩
  | dispatch j f =>
    refine ⟨rfl, same s.station, fun b => s.modHead_head a b fun h =>
      { h with state := .sending, message := some { fields := f, next := 1 } }, same s.verification, fun id => ?_⟩
    refine (State.modChest_chest? _ j.chest id _).trans ?_
    by_cases hid : id = j.chest
    · rw [hid]; simp [Outbound.chest]
    · simp [Outbound.chest, hid, Ne.symm hid]

/-! ## A slot is sent as the slots before it found it -/

/-- A chest but for its mark status. -/
def Chest.unmarked (c : Chest) : Chest := { c with mark := .none }

/-- The arbiter finds in slot `a` of `t` what it finds in `s`. -/
structure State.SameSlot (s t : State) (a : Nat) : Prop where
  station : t.station a = s.station a
  head : t.head a = s.head a
  part : t.part = s.part
  lot : ∀ k, t.lot? k = s.lot? k
  chest : ∀ id, (t.chest? id).map Chest.unmarked = (s.chest? id).map Chest.unmarked

/-- The mark fields of a job read its chest but for the mark status (R118). -/
theorem State.markFields_unmarked (s : State) (j : Job) : s.markFields j =
    ((s.chest? j.chest).map Chest.unmarked).bind fun c => match c.place with
      | .accepted k serial _ => (s.lot? k).map (fun l =>
        { kind := j.kind
          serial := serial
          garden := l.garden
          grade := l.grade
          invoice := l.invoice
          printedNet := if l.overmark then c.recNet.getD 0 - c.sample else c.recNet.getD 0
          gross := c.gross
          season := l.season })
      | _ => none := by
  unfold State.markFields
  cases s.chest? j.chest <;> rfl

namespace State.SameSlot

variable {s t : State} {a : Nat} (h : s.SameSlot t a)
include h

theorem markFields (j : Job) : t.markFields j = s.markFields j := by
  simp only [State.markFields_unmarked, h.chest, h.lot]

theorem dispatchable : t.dispatchable a = s.dispatchable a := by
  unfold State.dispatchable
  dsimp only
  refine if_congr (by rw [State.isActive, h.head, h.station, h.part]; rfl) ?_ rfl
  rw [h.head]
  cases (s.head a).queue with
  | nil => rfl
  | cons j rest => exact congrArg (Option.map _) (h.markFields j)

theorem chosen : t.chosen a = s.chosen a := by
  simp only [State.chosen, h.station, h.head, h.dispatchable]

end State.SameSlot

/-- What is sent in one slot is not seen in another. -/
theorem Outbound.send_sameSlot (s : State) {a b : Nat} (o : Outbound) (hb : b ≠ a) : s.SameSlot (o.send s a) b := by
  obtain ⟨hframe, hstation, hhead, -, hchest⟩ := o.send_spec s a
  refine ⟨?_, ?_, ?_, fun k => ?_, fun id => ?_⟩
  · rw [hstation, if_neg hb]
  · rw [hhead, if_neg hb]
  · rw [hframe]
  · rw [hframe]; rfl
  · rw [hchest]
    split
    · rw [Option.map_map]; rfl
    · rfl

/-- The slots of different addresses, one after the other. -/
theorem State.sendSlots_spec (as : List Nat) (hn : as.Nodup) (s : State) :
    let t := (s.sendSlots as).1
    t = { s with stations := t.stations, heads := t.heads, verifications := t.verifications, chests := t.chests } ∧
    (s.sendSlots as).2 = as.map (fun a => (s.chosen a).word a (s.station a).join) ∧
    (∀ b, t.station b = if b ∈ as then (s.chosen b).station (s.station b) else s.station b) ∧
    (∀ b, t.head b = if b ∈ as then (s.chosen b).head (s.head b) (s.station b).printMs else s.head b) ∧
    (∀ b, t.verification b = if b ∈ as then (s.chosen b).verification (s.verification b) else s.verification b) ∧
    ∀ id, t.chest? id = if ∃ a ∈ as, (s.chosen a).chest = some id
      then (s.chest? id).map (fun c => { c with mark := .inFlight }) else s.chest? id := by
  induction as generalizing s with
  | nil =>
    refine ⟨rfl, rfl, fun b => ?_, fun b => ?_, fun b => ?_, fun id => ?_⟩ <;> simp [State.sendSlots]
  | cons a as ih =>
    obtain ⟨hnew, hn⟩ := List.nodup_cons.mp hn
    obtain ⟨hframe, hstation, hhead, hverification, hchest⟩ := (s.chosen a).send_spec s a
    have hother (b : Nat) (hb : b ≠ a) := (s.chosen a).send_sameSlot s hb
    obtain ⟨hframes, hwords, hstations, hheads, hverifications, hchests⟩ := ih hn ((s.chosen a).send s a)
    have hsent : s.sendSlots (a :: as) = ((((s.chosen a).send s a).sendSlots as).1,
        (s.chosen a).word a (s.station a).join :: (((s.chosen a).send s a).sendSlots as).2) := by
      rw [State.sendSlots, State.outbound_eq]
    rw [hsent, hwords]
    dsimp only at hframe hframes ⊢
    generalize (((s.chosen a).send s a).sendSlots as).1 = t at *
    generalize (s.chosen a).send s a = u at *
    have hchosen (b : Nat) (hb : b ≠ a) : u.chosen b = s.chosen b := (hother b hb).chosen
    have hne (b : Nat) (hb : b ∈ as) : b ≠ a := ne_of_mem_of_not_mem hb hnew
    refine ⟨?_, ?_, fun b => ?_, fun b => ?_, fun b => ?_, fun id => ?_⟩
    · rw [hframes, hframe]
    · rw [List.map_cons]
      refine congrArg _ (List.map_congr_left fun b hb => ?_)
      rw [hchosen b (hne b hb), (hother b (hne b hb)).station]
    · rw [hstations, hstation]
      by_cases hb : b = a
      · simp [hb, hnew]
      · simp [hb, hchosen]
    · rw [hheads, hhead, hstation]
      by_cases hb : b = a
      · simp [hb, hnew]
      · simp [hb, hchosen]
    · rw [hverifications, hverification]
      by_cases hb : b = a
      · simp [hb, hnew]
      · simp [hb, hchosen]
    · have hlater : (∃ b ∈ as, (u.chosen b).chest = some id) ↔ ∃ b ∈ as, (s.chosen b).chest = some id :=
        exists_congr fun b => and_congr_right fun hb => by rw [hchosen b (hne b hb)]
      simp only [hchests, hlater, hchest, List.exists_mem_cons_iff]
      by_cases hfirst : (s.chosen a).chest = some id
      · by_cases hrest : ∃ b ∈ as, (s.chosen b).chest = some id
        · simp [hfirst, hrest, Option.map_map, Function.comp_def]
        · simp [hfirst, hrest]
      · simp [hfirst]

/-! ## What a head sends (R117, R152) -/

section Sends

variable {h : Head} {m : Message}

theorem Head.sending?_some (hst : h.state = .sending ∨ h.state = .pausePending) (hm : h.message = some m)
    (hr : h.reply = none) : h.sending? = some m := by
  rw [Head.sending?, if_pos ⟨hst, hr⟩, hm]

theorem Head.sending?_none
    (hno : ¬ (h.state = .sending ∨ h.state = .pausePending) ∨ h.message = none ∨ h.reply ≠ none) : h.sending? = none := by
  unfold Head.sending?
  split
  · next hc =>
    obtain ⟨hst, hr⟩ := hc
    rcases hno with h | h | h
    · exact absurd hst h
    · exact h
    · exact absurd hr h
  · rfl

theorem Head.sendNext_lt (printMs : Nat) (hlt : m.next < 10) :
    h.sendNext m printMs = { h with message := some { m with next := m.next + 1 } } := if_pos hlt

theorem Head.sendNext_last (printMs : Nat) (hlast : 10 ≤ m.next) (hst : h.state = .sending ∨ h.state = .pausePending) :
    h.sendNext m printMs = { h with
      message := some { m with next := Config.indexAfterLastWord }
      reply := some (printMs + 1000)
      state := if h.state = .sending then .printing else .pausePending } := by
  rw [Head.sendNext, if_neg (Nat.not_lt.mpr hlast)]
  rcases hst with hst | hst <;> simp [hst]

end Sends

section Dispatch

variable {s : State} {a : Nat}

theorem State.dispatchable_none (h : (s.head a).state ≠ .ready ∨ (s.station a).join ≠ .active ∨
    (s.head a).interval ≠ none ∨ s.part ≠ .running ∨ (s.head a).queue = []) : s.dispatchable a = none := by
  unfold State.dispatchable
  dsimp only
  split
  · next hc =>
    obtain ⟨hst, hj, hi, hp⟩ := hc
    rcases h with h | h | h | h | h
    · exact absurd hst h
    · exact absurd (State.isActive_iff.mp hj) h
    · exact absurd hi h
    · exact absurd hp h
    · rw [h]
  · rfl

theorem State.dispatchable_some {j : Job} {rest : List Job} {f : MarkFields} (hst : (s.head a).state = .ready)
    (hj : (s.station a).join = .active) (hi : (s.head a).interval = none) (hp : s.part = .running)
    (hq : (s.head a).queue = j :: rest) (hf : s.markFields j = some f) : s.dispatchable a = some (j, f) := by
  unfold State.dispatchable
  dsimp only
  rw [if_pos ⟨hst, State.isActive_iff.mpr hj, hi, hp⟩, hq]
  exact congrArg (Option.map _) hf

/-- A head that dispatches a job is READY on an ACTIVE station, its interval has run, and the job is its front one. -/
theorem State.dispatchable_front {j : Job} {f : MarkFields} (h : s.dispatchable a = some (j, f)) :
    (s.head a).state = .ready ∧ (s.station a).join = .active ∧ (s.head a).interval = none ∧ s.part = .running ∧
      ∃ rest, (s.head a).queue = j :: rest := by
  unfold State.dispatchable at h
  dsimp only at h
  split at h
  · next hc =>
    obtain ⟨hst, hj, hi, hp⟩ := hc
    refine ⟨hst, State.isActive_iff.mp hj, hi, hp, ?_⟩
    rcases hq : (s.head a).queue with _ | ⟨i, rest⟩
    · rw [hq] at h; exact nomatch h
    · rw [hq] at h
      obtain ⟨g, -, hg⟩ := Option.map_eq_some_iff.mp h
      obtain ⟨rfl, -⟩ := Prod.mk.inj hg
      exact ⟨rest, rfl⟩
  · exact nomatch h

/-- A message starts where no answer and no order waits, with the front job of a head that may dispatch it. -/
theorem State.chosen_starts {id : Nat} (h : (s.chosen a).chest = some id) : (s.station a).answers = [] ∧
    (s.station a).order = none ∧ (s.station a).join = .active ∧ (s.head a).state = .ready ∧
    (s.head a).interval = none ∧ s.part = .running ∧ ∃ j rest, (s.head a).queue = j :: rest ∧ j.chest = id := by
  unfold State.chosen at h
  split at h
  · exact nomatch h
  · next ha =>
    split at h
    · exact nomatch h
    · next ho =>
      split at h
      · exact nomatch h
      · split at h
        · next j f hd =>
          obtain ⟨hst, hj, hi, hp, rest, hq⟩ := State.dispatchable_front hd
          exact ⟨ha, ho, hj, hst, hi, hp, j, rest, hq, Option.some.inj h⟩
        · exact nomatch h

/-- With no answer and no order waiting, the entry and the verification record are left as they are. -/
theorem State.chosen_quiet (ha : (s.station a).answers = []) (ho : (s.station a).order = none) (v : Station)
    (w : Verification) : (s.chosen a).station v = v ∧ (s.chosen a).verification w = w := by
  unfold State.chosen
  simp only [ha, ho]
  split
  · exact ⟨rfl, rfl⟩
  · split
    · exact ⟨rfl, rfl⟩
    · exact ⟨rfl, rfl⟩

/-- The fields of a job whose chest is accepted in a non-free lot (R118). -/
theorem State.markFields_accepted {j : Job} {c : Chest} {k serial bulk : Nat} {l : Lot}
    (hc : s.chest? j.chest = some c) (hp : c.place = .accepted k serial bulk) (hl : s.lot? k = some l) :
    s.markFields j = some
      { kind := j.kind
        serial := serial
        garden := l.garden
        grade := l.grade
        invoice := l.invoice
        printedNet := if l.overmark then c.recNet.getD 0 - c.sample else c.recNet.getD 0
        gross := c.gross
        season := l.season } := by
  simp only [State.markFields, hc, hp, hl, Option.map_some]

end Dispatch

theorem Verification.orderSent_at {w : Verification} {st : Standing} (h : w.state = .at st) (m : Nat) :
    w.orderSent (.test m) = w := by
  obtain ⟨state, period, grace, action, tolerance, abilities, lastTest⟩ := w
  obtain rfl : state = .at st := h
  rfl

theorem Verification.orderSent_testing {w : Verification} {p : Standing} {g : Nat} {b : Bool}
    (h : w.state = .testing p g b) (m : Nat) : w.orderSent (.test m) = { w with state := .testing p g true } := by
  obtain ⟨state, period, grace, action, tolerance, abilities, lastTest⟩ := w
  obtain rfl : state = .testing p g b := h
  rfl

/-! ## The whole cycle (R144) -/

theorem Station.turned_eq (v : Station) :
    v.closeSlot.openSlot = { if v.slotOpen then v.afterSilence else v with slotOpen := true } := by
  rw [Station.closeSlot, Station.silent_eq_afterSilence, Station.openSlot]

/-- A cycle turns the slots and sends each of them. -/
theorem linkCycle_spec {s : State} (hp : s.part ≠ .retain) :
    let u := s.turned
    let t := linkCycle s
    t = { u with
      cycle := t.cycle
      linkOut := t.linkOut
      stations := t.stations
      heads := t.heads
      verifications := t.verifications
      chests := t.chests } ∧
    t.cycle = some (nextCycle s.cycle) ∧
    t.linkOut = cycleHead (nextCycle s.cycle) :: addresses.map (fun a => (u.chosen a).word a (u.station a).join) ∧
    (∀ a, t.station a = if 1 ≤ a ∧ a ≤ 14 then (u.chosen a).station (u.station a) else u.station a) ∧
    (∀ a, t.head a = if 1 ≤ a ∧ a ≤ 14 then (u.chosen a).head (u.head a) (u.station a).printMs else u.head a) ∧
    (∀ a, t.verification a =
      if 1 ≤ a ∧ a ≤ 14 then (u.chosen a).verification (u.verification a) else u.verification a) ∧
    ∀ id, t.chest? id = if ∃ a ∈ addresses, (u.chosen a).chest = some id
      then (u.chest? id).map (fun c => { c with mark := .inFlight }) else u.chest? id := by
  obtain ⟨hframe, hwords, hstation, hhead, hverification, hchest⟩ := s.turned.sendSlots_spec addresses addresses_nodup
  simp only [mem_addresses] at hstation hhead hverification
  rw [linkCycle_eq hp, hwords]
  dsimp only
  generalize (s.turned.sendSlots addresses).1 = t at *
  generalize s.turned = u at *
  refine ⟨?_, rfl, rfl, hstation, hhead, hverification, hchest⟩
  rw [hframe]

/-- The word of the slot of an address stands at its place behind the cycle head. -/
theorem slotWord (f : Nat → LinkWord) (x : LinkWord) {a : Nat} (h1 : 1 ≤ a) (h14 : a ≤ 14) :
    (x :: addresses.map f)[a]? = some (f a) := by
  obtain ⟨i, rfl⟩ := Nat.exists_eq_add_of_le' h1
  have hi : addresses[i]? = some (i + 1) := by
    have hrange : addresses = List.range' 1 14 := rfl
    rw [hrange, List.getElem?_range' (by omega), Nat.one_mul, Nat.add_comm]
  rw [List.getElem?_cons_succ, List.getElem?_map, hi, Option.map_some]

/-- Settles O52: the slots as the cycle turns them, and then what the arbiter chooses in each. -/
theorem linkCycleTurns : Obligations.LinkCycleTurns := by
  intro s hp
  have hexec : exec .linkCycle s = .next (linkCycle s) := rfl
  obtain ⟨hframe, hcycle, hout, hstation, hhead, hverification, hchest⟩ := linkCycle_spec hp
  obtain ⟨uframe, ustation, uhead, uverification⟩ := s.turned_spec
  generalize linkCycle s = t at *
  generalize s.turned = u at *
  have uchest (id : Nat) : u.chest? id = s.chest? id := by rw [uframe]; rfl
  have ulot (k : Nat) : u.lot? k = s.lot? k := by rw [uframe]; rfl
  have upart : u.part = s.part := by rw [uframe]
  refine ⟨t, hexec, ?_, ⟨hcycle, ?_, ?_⟩, ?_⟩
  · rw [hframe, uframe]
  · rw [hout]; rfl
  · rw [hout]; rfl
  · intro later
    refine ⟨by rw [hframe, uframe]; rfl, ?_⟩
    intro turned
    have uturned {a : Nat} (ha : 1 ≤ a ∧ a ≤ 14) : u.station a = turned a :=
      (ustation a).trans ((if_pos ha).trans (s.station a).turned_eq)
    have utimed {a : Nat} (ha : 1 ≤ a ∧ a ≤ 14) : u.head a = (s.head a).timed s.later := (uhead a).trans (if_pos ha)
    refine ⟨fun id hno => ?_, fun a ha => ⟨?_, ?_, ?_⟩, fun a h1 h14 => ?_⟩
    · rw [hchest, if_neg, uchest]
      rintro ⟨a, hmem, hstarts⟩
      have ha := (mem_addresses a).mp hmem
      obtain ⟨hanswers, horder, hactive, hst, hi, hpart, j, rest, hq, hj⟩ := State.chosen_starts hstarts
      rw [uturned ha] at hanswers horder hactive
      rw [utimed ha] at hst hi hq
      exact hno a j rest ha.1 ha.2 hanswers horder hactive hst (Option.map_eq_none_iff.mp hi) (upart ▸ hpart) hq hj
    · rw [hstation, if_neg ha, ustation, if_neg ha]
    · rw [hhead, if_neg ha, uhead, if_neg ha]
    · rw [hverification, if_neg ha, uverification, if_neg ha]
    · intro v h w
      have haddr : 1 ≤ a ∧ a ≤ 14 := ⟨h1, h14⟩
      have hv : u.station a = v := uturned haddr
      have hh : u.head a = h := utimed haddr
      have hw : u.verification a = w := (uverification a).trans (if_pos haddr)
      have slot {o : Outbound} (ho : u.chosen a = o) : t.linkOut[a]? = some (o.word a v.join) ∧
          t.station a = o.station v ∧ t.head a = o.head h v.printMs ∧ t.verification a = o.verification w := by
        rw [hout, slotWord _ _ h1 h14, hstation, hhead, hverification, if_pos haddr, if_pos haddr,
          if_pos haddr, hv, hh, hw, ho]
        exact ⟨rfl, rfl, rfl, rfl⟩
      refine ⟨fun x rest hx => slot (State.chosen_answer (hv ▸ hx)), fun hnil => ?_⟩
      have ha : (u.station a).answers = [] := hv ▸ hnil
      refine ⟨fun ho => slot (o := .order .testEnd) (State.chosen_order ha (hv ▸ ho)), fun m ho => ?_, fun hnone => ?_⟩
      · obtain ⟨hword, hentry, hkept, hsent⟩ := slot (State.chosen_order ha (hv ▸ ho))
        exact ⟨hword, hentry, hkept, fun st hst => hsent.trans (Verification.orderSent_at hst m),
          fun p g b hst => hsent.trans (Verification.orderSent_testing hst m)⟩
      · have ho : (u.station a).order = none := hv ▸ hnone
        obtain ⟨-, hentry, -, hsent⟩ := slot rfl
        obtain ⟨hquiet, hunsent⟩ := State.chosen_quiet ha ho v w
        have polled (hm : h.sending? = none) (hd : u.dispatchable a = none) :
            t.linkOut[a]? = some (pollWord a v.join) ∧ t.head a = h := by
          obtain ⟨hword, -, hkept, -⟩ := slot (State.chosen_poll ha ho (hh ▸ hm) hd)
          exact ⟨hword, hkept⟩
        have unready (hst : h.state ≠ .ready) : u.dispatchable a = none := State.dispatchable_none (.inl (hh ▸ hst))
        refine ⟨hentry.trans hquiet, hsent.trans hunsent, fun hst => ⟨fun m hm hr => ?_, fun hno => ?_⟩,
          fun hst => ?_, fun hst => ⟨fun hno => ?_, fun j rest c k serial bulk l hj hi hpart hq hc hplace hl => ?_⟩⟩
        · obtain ⟨hword, -, hnext, -⟩ := slot (State.chosen_mark ha ho (hh ▸ Head.sending?_some hst hm hr))
          exact ⟨hword, fun hlt => hnext.trans (Head.sendNext_lt _ hlt),
            fun hlast => hnext.trans (Head.sendNext_last _ hlast hst)⟩
        · refine polled (Head.sending?_none (.inr hno)) (unready ?_)
          rcases hst with hst | hst <;> simp [hst]
        · have hother : ¬ (h.state = .sending ∨ h.state = .pausePending) ∧ h.state ≠ .ready := by
            rcases hst with hst | hst | ⟨r, hst⟩ <;> simp [hst]
          exact polled (Head.sending?_none (.inl hother.1)) (unready hother.2)
        · refine polled (Head.sending?_none (.inl (by simp [hst]))) (State.dispatchable_none (.inr ?_))
          rw [hv, hh, upart]
          exact hno
        · intro net f
          have hf : u.markFields j = some f :=
            State.markFields_accepted ((uchest _).trans hc) hplace ((ulot k).trans hl)
          have hchosen : u.chosen a = .dispatch j f :=
            State.chosen_dispatch ha ho (hh ▸ Head.sending?_none (.inl (by simp [hst])))
              (State.dispatchable_some (hh ▸ hst) (hv ▸ hj) (hh ▸ hi) (upart ▸ hpart) (hh ▸ hq) hf)
          obtain ⟨hword, -, hnext, -⟩ := slot hchosen
          refine ⟨hword, hnext, ?_⟩
          rw [hchest, if_pos ⟨a, (mem_addresses a).mpr haddr, by rw [hchosen]; rfl⟩, uchest, hc, Option.map_some]

end Sys2Proof.Machine
end

section
/-! PROOFS. The windows of the Command Port (O2, O3), and the rows of the host commands (O4, O6): each takes its latched
frames by the rule of an owner that changes nothing when it refuses. -/

namespace Sys2Proof.Machine

/-! ## Command windows (R161) -/

theorem windowEnd_retain {s : State} (hp : s.part = .retain) (bytes : List Byte) : windowEnd bytes s = s :=
  if_pos (.inl hp)

theorem windowEnd_preparing {s : State} {f : List Byte} (hf : s.buffer = .preparing f) (bytes : List Byte) :
    windowEnd bytes s = s := by
  unfold windowEnd
  split_ifs
  · rfl
  · rw [hf]

theorem windowEnd_latches {s : State} {bytes : List Byte} (hp : s.part ≠ .retain)
    (hw : isCommandWindow bytes = true) (hfree : ∀ f, s.buffer ≠ .preparing f) :
    windowEnd bytes s = s.setBuffer (.preparing bytes) := by
  have hheard : ¬ (s.part = .retain ∨ (!isCommandWindow bytes) = true) := by simp [hp, hw]
  unfold windowEnd
  rw [if_neg hheard]
  split
  · next f hf => exact absurd hf (hfree f)
  · rfl

theorem isCommandWindow_cons {b : Byte} (hb : b ≠ 0x00) (rest : List Byte) : isCommandWindow (b :: rest) = true :=
  bne_iff_ne.mpr hb

/-- Settles O2: RETAIN, a latched frame, and neither. -/
theorem commandWindowLatchesFrame : Obligations.CommandWindowLatchesFrame := fun _ _ rest hb =>
  ⟨fun hp => congrArg _ (windowEnd_retain hp _), fun _ _ hf => congrArg _ (windowEnd_preparing hf _),
    fun hp hfree => congrArg _ (windowEnd_latches hp (isCommandWindow_cons hb rest) hfree)⟩

/-! ## Read windows (R163) -/

theorem shiftOut_whole {f : List Byte} {n : Nat} (h : f.length ≤ n) :
    shiftOut f n = f ++ List.replicate (n - f.length) 0xFF := by
  rw [shiftOut, List.take_of_length_le h]

theorem shiftOut_cut {f : List Byte} {n : Nat} (h : n < f.length) : shiftOut f n = f.take n := by
  rw [shiftOut, Nat.sub_eq_zero_of_le h.le, List.replicate_zero, List.append_nil]

theorem shiftOut_nil (n : Nat) : shiftOut [] n = List.replicate n 0xFF := by
  rw [shiftOut, List.take_nil, List.nil_append, List.length_nil, Nat.sub_zero]

section Windows

variable {s : State} (hp : s.part ≠ .retain) {f : List Byte} (n : Nat)
include hp

theorem readWindow_ready (hf : s.buffer = .ready f) : readWindow n s =
    { s with sdo := shiftOut f n, buffer := if f.length ≤ n then .read f else .ready f } := by
  rw [readWindow, if_neg hp, hf]

theorem readWindow_read (hf : s.buffer = .read f) : readWindow n s = { s with sdo := shiftOut f n } := by
  rw [readWindow, if_neg hp, hf]

theorem readWindow_noResponse (hf : s.buffer = .empty ∨ s.buffer = .preparing f) :
    readWindow n s = { s with sdo := shiftOut [] n } := by
  rcases hf with hf | hf <;> rw [readWindow, if_neg hp, hf]

end Windows

theorem State.rdyLine_ready {s : State} {f : List Byte} (hp : s.part ≠ .retain) (hf : s.buffer = .ready f) :
    s.rdyLine = true := by
  rw [State.rdyLine, hf, bne_iff_ne.mpr hp]
  rfl

theorem State.rdyLine_read {s : State} {f : List Byte} (hf : s.buffer = .read f) : s.rdyLine = false := by
  rw [State.rdyLine, hf, Bool.and_false]

/-- Settles O3, by what the buffer holds and, in READY, by the window's length against the frame's. -/
theorem readWindowShiftsResponse : Obligations.ReadWindowShiftsResponse := by
  intro s n hp
  refine ⟨fun f hf => ⟨State.rdyLine_ready hp hf, fun hwhole => ⟨?_, State.rdyLine_read rfl⟩, fun hcut => ?_⟩,
    fun f hf => congrArg _ (readWindow_read hp n hf), fun f hf => ?_⟩
  · exact congrArg _ ((readWindow_ready hp n hf).trans (by rw [shiftOut_whole hwhole, if_pos hwhole]))
  · exact congrArg _ ((readWindow_ready hp n hf).trans (by rw [shiftOut_cut hcut, if_neg hcut.not_ge, ← hf]))
  · exact congrArg _ ((readWindow_noResponse hp n hf).trans (by rw [shiftOut_nil]))

/-! ## Owners that change nothing when they refuse (R164) -/

/-- An owner's answer on `s`: OK, STARTED, or a refusal that leaves `s` as it is. -/
def State.RefusesCleanly (s : State) (x : State × Reply) : Prop :=
  x.2.status = .ok ∨ x.2.status = .started ∨ x.1 = s

namespace State.RefusesCleanly

variable {s : State} {checks : List (Bool × Status)}

theorem taken {u : State} {data : List Byte} : s.RefusesCleanly (okay u data) := .inl rfl

theorem unchanged {r : Reply} : s.RefusesCleanly (s, r) := .inr (.inr rfl)

theorem afterChecks {effect : State × Reply} (h : s.RefusesCleanly effect) :
    s.RefusesCleanly (checked s checks effect) := by
  rcases checked_cases s checks effect with he | ⟨e, -, he⟩ <;> rw [he]
  · exact h
  · exact unchanged

theorem checkedTaken {u : State} {data : List Byte} : s.RefusesCleanly (checked s checks (okay u data)) :=
  taken.afterChecks

end State.RefusesCleanly

theorem mixBulk_refusesCleanly (p : Nat × Nat) (s : State) : s.RefusesCleanly (mixBulk p s) := by
  refine State.RefusesCleanly.afterChecks ?_
  split_ifs
  · exact .unchanged
  · exact .taken

theorem readBulk_refusesCleanly (p : Named) (s : State) : s.RefusesCleanly (readBulk p s) := by
  cases p with
  | slot k => exact .checkedTaken
  | number n => exact .checkedTaken
  | bad => exact .unchanged

theorem readLot_refusesCleanly (p : Named) (s : State) : s.RefusesCleanly (readLot p s) := by
  cases p with
  | slot k => exact .checkedTaken
  | number n => exact .checkedTaken
  | bad => exact .unchanged

theorem readChest_refusesCleanly (p : ChestName) (s : State) : s.RefusesCleanly (readChest p s) := by
  cases p with
  | id n => exact .checkedTaken
  | serial k n => exact .checkedTaken
  | position n => exact .checkedTaken
  | bad => exact .unchanged

theorem assignHeld_refusesCleanly (p : AssignParams) (s : State) : s.RefusesCleanly (assignHeld p s) := by
  refine State.RefusesCleanly.afterChecks ?_
  split
  · exact .unchanged
  · split_ifs
    · exact .taken
    · exact .unchanged

theorem voidChest_refusesCleanly (id : Nat) (s : State) : s.RefusesCleanly (voidChest id s) := by
  unfold voidChest
  split_ifs
  · exact .checkedTaken
  · exact .checkedTaken

theorem cancelVerify_refusesCleanly (a : Nat) (s : State) : s.RefusesCleanly (cancelVerify a s) := by
  refine State.RefusesCleanly.afterChecks ?_
  split
  · exact .taken
  · exact .taken

/-- PURGE alone answers STARTED. -/
theorem startPurge_refusesCleanly (p : Unit) (s : State) : s.RefusesCleanly (startPurge p s) :=
  State.RefusesCleanly.afterChecks (.inr (.inl rfl))

/-! ## The rows of the host commands -/

/-- The row takes the frames of its code, by the rule of an owner that refuses cleanly. A whole frame alone may be left
to another row: HOLD_LANE leaves those with the force option on (assumption 9). -/
def IsHostRow (e : Instr × Byte × (List Byte → Bool)) : Prop :=
  ∃ (α : Type) (read : List Byte → Option α) (w : Bool) (own : α → State → State × Reply),
    (∀ ps, e.2.2 ps = (read ps).isSome) ∧ (∀ p (s : State), s.RefusesCleanly (own p s)) ∧
    ∀ s, exec e.1 s = .next (takeCommand e.2.1 read w own s) ∨ exec e.1 s = .next s ∧ ∃ p, s.latches e.2.1 read p

theorem isHostRow {α : Type} {read : List Byte → Option α} {w : Bool} {i : Instr} {code : Byte}
    (own : α → State → State × Reply)
    (hi : ∀ s, exec i s = .next (takeCommand code read w own s) := by exact fun _ => rfl)
    (ho : ∀ p (s : State), s.RefusesCleanly (own p s) := by exact fun _ _ => .checkedTaken) :
    IsHostRow (i, code, fun ps => (read ps).isSome) :=
  ⟨α, read, w, own, fun _ => rfl, ho, fun s => .inl (hi s)⟩

theorem State.latched_some {s : State} {code : Byte} {rest : List Byte} (h : s.latched = some (code, rest)) :
    s.part ≠ .retain ∧ s.buffer = .preparing (code :: rest) := by
  unfold State.latched at h
  split_ifs at h with hp
  split at h
  · next c l hb => cases h; exact ⟨hp, hb⟩
  · cases h

theorem State.latches_of_latched {α : Type} {s : State} {code : Byte} {rest : List Byte} {read : List Byte → Option α}
    {p : α} (h : s.latched = some (code, rest)) (hr : (frameParams rest).bind read = some p) :
    s.latches code read p := by
  obtain ⟨hp, hb⟩ := State.latched_some h
  obtain ⟨ps, hps, hread⟩ := Option.bind_eq_some_iff.mp hr
  obtain ⟨hlen, rfl⟩ := frameParams_some hps
  exact ⟨hp, ps, hlen, hb, hread⟩

/-- The frames of HOLD_LANE_FORCE are whole. -/
theorem State.latches_of_latchedForce {s : State} (h : s.latchedForce = true) : ∃ p, s.latches 0x42 readPair p := by
  unfold State.latchedForce at h
  split at h
  · next c rest hlatched =>
    obtain ⟨hc, hoption⟩ := Bool.and_eq_true_iff.mp h
    obtain rfl := beq_iff_eq.mp hc
    split at hoption
    · next p hread => exact ⟨p, State.latches_of_latched hlatched hread⟩
    · cases hoption
  · cases h

theorem holdLane_isHostRow : IsHostRow (.holdLane, 0x42, fun ps => (readPair ps).isSome) := by
  refine ⟨_, readPair, false, holdLane, fun _ => rfl, fun _ _ => .checkedTaken, fun s => ?_⟩
  have hrow : exec .holdLane s = .next (if s.latchedForce then s else takeCommand 0x42 readPair false holdLane s) := rfl
  rw [hrow]
  split_ifs with hforce
  · exact .inr ⟨rfl, State.latches_of_latchedForce hforce⟩
  · exact .inl rfl

theorem hostCommands_rows : ∀ e ∈ hostCommands, IsHostRow e := by
  have table : hostCommands.Forall IsHostRow := ⟨
    isHostRow setStation, isHostRow readStation, isHostRow setTareClass, isHostRow readTareClass, isHostRow openBulk,
    isHostRow mixBulk (ho := mixBulk_refusesCleanly), isHostRow settleCharge, isHostRow spendBulk, isHostRow freeBulk,
    isHostRow readBulk (ho := readBulk_refusesCleanly), isHostRow openLot, isHostRow closeLot, isHostRow declareLot,
    isHostRow retireLot, isHostRow drawSample, isHostRow readLot (ho := readLot_refusesCleanly),
    isHostRow readDeclaration, isHostRow mapLane, isHostRow unmapLaneCommand, holdLane_isHostRow,
    isHostRow releaseLane, isHostRow readLane, isHostRow readChest (ho := readChest_refusesCleanly),
    isHostRow assignHeld (ho := assignHeld_refusesCleanly), isHostRow returnChest,
    isHostRow voidChest (ho := voidChest_refusesCleanly), isHostRow pauseHead, isHostRow resumeHead,
    isHostRow flushHead, isHostRow reprintChest, isHostRow readHead, isHostRow setVerify, isHostRow verifyScale,
    isHostRow cancelVerify (ho := cancelVerify_refusesCleanly), isHostRow readNotices (ho := fun _ _ => .taken),
    isHostRow clearNotices, isHostRow setNoticeEnables, isHostRow readPart (ho := fun _ _ => .taken),
    isHostRow startPurge (ho := startPurge_refusesCleanly)⟩
  exact List.forall_iff_forall_mem.mp table

/-! ## Frames that are not whole (R162) -/

theorem frameParams_bind_none {α : Type} {read : List Byte → Option α} {rest : List Byte}
    (h : ¬ ∃ ps, ps.length ≤ 100 ∧ rest = byte ps.length :: ps ∧ (read ps).isSome = true) :
    (frameParams rest).bind read = none := by
  refine Option.eq_none_iff_forall_ne_some.mpr fun p hsome => h ?_
  obtain ⟨ps, hps, hp⟩ := Option.bind_eq_some_iff.mp hsome
  obtain ⟨hlen, hrest⟩ := frameParams_some hps
  exact ⟨ps, hlen, hrest, Option.isSome_of_eq_some hp⟩

theorem takeCommand_badFrame {α : Type} {s : State} {code : Byte} {rest : List Byte} {read : List Byte → Option α}
    {w : Bool} {own : α → State → State × Reply} (hl : s.latched = some (code, rest))
    (hbad : (frameParams rest).bind read = none) : takeCommand code read w own s = s.refused code 0x0C := by
  simp only [takeCommand, hl, ne_eq, not_true_eq_false, if_false, hbad]
  rfl

theorem commandCodes_eq : commandCodes = hostCommands.map (·.2.1) := rfl

theorem takeUnknown_eq {s : State} {c : Byte} {rest : List Byte} (hp : s.part ≠ .retain)
    (hb : s.buffer = .preparing (c :: rest)) (hc : c ∉ commandCodes) : takeUnknown s =
      s.respond c { status := if (frameParams rest).isSome then .noSuch else .badFrame, data := [] } := by
  simp only [takeUnknown, State.latched_eq hp hb, if_neg hc]

/-- Settles O4: a row whose reader finds no whole frame answers BAD_FRAME; the rows' codes are all there are. -/
theorem badFrameIsRefused : Obligations.BadFrameIsRefused := by
  refine ⟨fun e he s rest hp hb hbad => ?_, fun s c rest hp hc hb => ?_⟩
  · obtain ⟨α, read, w, own, hread, -, hrow⟩ := hostCommands_rows e he
    have hl := State.latched_eq hp hb
    simp only [hread] at hbad
    have hnone := frameParams_bind_none hbad
    rcases hrow s with hexec | ⟨-, p, hlatches⟩
    · exact hexec.trans (congrArg _ (takeCommand_badFrame hl hnone))
    · obtain ⟨rest', hl', hsome⟩ := State.latches_latched hlatches
      obtain rfl : rest = rest' := congrArg Prod.snd (Option.some.inj (hl.symm.trans hl'))
      rw [hnone] at hsome
      cases hsome
  · have hunknown : c ∉ commandCodes := by
      rw [commandCodes_eq, List.mem_map]
      exact fun ⟨e, he, hce⟩ => hc e he hce
    have htaken := takeUnknown_eq hp hb hunknown
    refine ⟨fun hbad => ?_, fun ps hlen hrest => ?_⟩
    · have hnone : frameParams rest = none := Option.eq_none_iff_forall_ne_some.mpr fun ps hps =>
        hbad ⟨ps, frameParams_some hps⟩
      rw [hnone] at htaken
      exact congrArg _ htaken
    · rw [hrest, frameParams_frame hlen] at htaken
      exact congrArg _ htaken

/-! ## Refused commands (R164) -/

/-- The response in `t` is no refusal, or `t` is `s` but for its buffer. -/
def State.AnswersCleanly (s t : State) : Prop :=
  ∀ code status more, t.buffer = .ready (code :: status :: more) → status ≠ 0 → status ≠ 1 →
    t = { s with buffer := t.buffer }

theorem State.AnswersCleanly.refl (s : State) : s.AnswersCleanly s := fun _ _ _ _ _ _ => rfl

theorem State.AnswersCleanly.setBuffer (s : State) (b : Buffer) : s.AnswersCleanly (s.setBuffer b) :=
  fun _ _ _ _ _ _ => rfl

theorem State.RefusesCleanly.respond {s : State} {x : State × Reply} (h : s.RefusesCleanly x) (c : Byte) :
    s.AnswersCleanly (x.1.respond c x.2) := by
  intro code status more hb h0 h1
  obtain ⟨-, hrest⟩ := List.cons.inj (Buffer.ready.inj hb)
  have hstatus : byte x.2.status.code = status := List.head_eq_of_cons_eq hrest
  subst hstatus
  rcases h with hok | hstarted | hsame
  · rw [hok] at h0
    exact absurd rfl h0
  · rw [hstarted] at h1
    exact absurd rfl h1
  · rw [hsame]
    rfl

theorem takeCommand_answersCleanly {α : Type} {code : Byte} {read : List Byte → Option α} {w : Bool}
    {own : α → State → State × Reply} {s : State} (ho : ∀ p, s.RefusesCleanly (own p s)) :
    s.AnswersCleanly (takeCommand code read w own s) := by
  rcases takeCommand_cases code read w own s with he | he | he | ⟨p, he⟩ <;> rw [he]
  · exact .refl s
  · exact .setBuffer s _
  · exact .setBuffer s _
  · exact (ho p).respond code

theorem exec_holdLaneForce_answersCleanly {s t : State} (h : exec .holdLaneForce s = .next t) : s.AnswersCleanly t := by
  refine keeps_of_next (u := if s.latchedForce then takeCommand 0x42 readPair false holdLaneForce s else s) ?_ h
  split_ifs
  · exact takeCommand_answersCleanly fun _ => .checkedTaken
  · exact .refl s

/-- Settles O6: each row's owner refuses cleanly, and the port's own refusals touch the buffer alone. -/
theorem refusedCommandChangesNothing : Obligations.RefusedCommandChangesNothing := by
  intro i s t code status more hi h
  suffices hclean : s.AnswersCleanly t from hclean code status more
  rcases List.mem_cons.mp hi with rfl | hi
  · exact exec_holdLaneForce_answersCleanly h
  · obtain ⟨e, he, rfl⟩ := List.mem_map.mp hi
    obtain ⟨α, read, w, own, -, ho, hrow⟩ := hostCommands_rows e he
    rcases hrow s with hexec | ⟨hexec, -⟩
    · exact keeps_of_next (takeCommand_answersCleanly (ho · s)) (hexec.symm.trans h)
    · exact keeps_of_next (.refl s) (hexec.symm.trans h)

end Sys2Proof.Machine
end

section
/-! PROOFS. Every command completes (O7): each row but CALL_GROSS answers a next state outright, and CALL_GROSS stops
only when it needs a chest record and finds none FREE. -/

namespace Sys2Proof.Machine

theorem firstFree_none {m : Table Chest} {n i : Nat} (h : firstFree m n i = none) {id : Nat} (hi : i ≤ id)
    (hn : id < i + n) : (m.get? id).isSome = true := by
  induction n generalizing i with
  | zero => omega
  | succ n ih =>
    simp only [firstFree] at h
    split_ifs at h with hfree
    rcases Nat.eq_or_lt_of_le hi with rfl | hlt
    · exact Option.isSome_iff_ne_none.mpr (mt Option.isNone_iff_eq_none.mpr hfree)
    · exact ih h hlt (by omega)

theorem State.freeRecord_none {s : State} (h : s.freeRecord = none) {id : Nat} (hid : id < 2048) :
    (s.chest? id).isSome = true :=
  firstFree_none h (Nat.zero_le id) (by simpa [Config.chestRecords] using hid)

/-- An evaluation stops on one path alone: an outcome creates a chest and no record is FREE (assumption 24). -/
theorem State.evaluateGross_completes (s : State) (a : Nat) (r : Reading) :
    (∃ t, s.evaluateGross a r = .next t) ∨ s.evaluateGross a r = .fault .noFreeRecord ∧ s.freeRecord = none := by
  unfold State.evaluateGross
  split
  · exact .inl ⟨_, rfl⟩
  · split_ifs with hroom hstop
    · exact .inr ⟨rfl, hstop.2⟩
    · exact .inl ⟨_, rfl⟩
    · exact .inl ⟨_, rfl⟩

theorem callGross_completes (a : Nat) (s : State) :
    (∃ t, callGross a s = .next t) ∨ callGross a s = .fault .noFreeRecord ∧ s.freeRecord = none := by
  unfold callGross
  split
  · exact s.evaluateGross_completes a _
  · exact .inl ⟨_, rfl⟩

/-- Settles O7: a gross call that stops has found no FREE record, so all 2,048 are in use. -/
theorem everyCommandCompletes : Obligations.EveryCommandCompletes := by
  intro i s
  cases i with
  | callGross a =>
    rcases callGross_completes a s with hnext | ⟨hfault, hnone⟩
    · exact .inl hnext
    · exact .inr ⟨a, rfl, hfault, fun id hid => State.freeRecord_none hnone hid⟩
  | _ => exact .inl ⟨_, rfl⟩

end Sys2Proof.Machine
end

section
/-! PROOFS. The notice set and READ_PART (O14, O15): what a raise writes, the bytes of the answers, and the two commands
that write the set kind by kind. -/

namespace Sys2Proof.Machine

/-! ## Bytes (R183) -/

theorem u2_eq (n : Nat) : u2 n = [byte (n / 256), byte n] := rfl

theorem be_three (n : Nat) : be 3 n = [byte (n / 65536), byte (n / 256), byte n] := by
  change [byte (n / 256 / 256), byte (n / 256), byte n] = _
  rw [Nat.div_div_eq_div_mul]

theorem flag_eq (b : Bool) : flag b = [bit b] := by cases b <;> rfl

theorem Notice.data_eq (n : Notice) :
    n.data = [bit n.pending, bit n.enable, bit n.repeated, bit n.source.isSome, byte (n.source.getD 0)] := by
  simp only [Notice.data, flag_eq, optional_one, List.cons_append, List.nil_append]

theorem State.noticesData_eq (s : State) : s.noticesData = byte 19 :: noticeKinds.flatMap (fun k =>
    let n := s.notice k
    [bit n.pending, bit n.enable, bit n.repeated, bit n.source.isSome, byte (n.source.getD 0)]) := by
  simp only [State.noticesData, listed, Notice.data_eq]
  rfl

/-! ## The NOTICE line (R170) -/

theorem State.noticeLine_iff (s : State) : s.noticeLine = true ↔
    s.part ≠ .retain ∧ ∃ j, (s.notice j).pending = true ∧ (s.notice j).enable = true := by
  simp only [State.noticeLine, Bool.and_eq_true, bne_iff_ne, List.any_eq_true, mem_noticeKinds, true_and]

/-! ## The set rewritten kind by kind (R168, R169) -/

theorem noticeKinds_nodup : noticeKinds.Nodup := by decide

section Rewrites

variable {op : State → NoticeKind → State} {F : NoticeKind → Notice → Notice}

/-- Steps that each rewrite one kind by the rule `F`: each listed kind is rewritten once. -/
theorem foldl_notice (hop : ∀ t k j, (op t k).notice j = if j = k then F k (t.notice k) else t.notice j)
    (l : List NoticeKind) (hl : l.Nodup) (s : State) (k : NoticeKind) :
    (l.foldl op s).notice k = if k ∈ l then F k (s.notice k) else s.notice k := by
  induction l generalizing s with
  | nil => rfl
  | cons j l ih =>
    obtain ⟨hj, hl⟩ := List.nodup_cons.mp hl
    rw [List.foldl_cons, ih hl, hop]
    by_cases hk : k = j
    · subst hk
      simp [hj]
    · simp [hk]

/-- A rewrite of all the kinds: the notices alone change, each by its rule. -/
theorem State.rewriteNotices (hframe : ∀ t k, ∃ ns, op t k = { t with notices := ns })
    (hop : ∀ t k j, (op t k).notice j = if j = k then F k (t.notice k) else t.notice j) (s : State) :
    ∃ ns, noticeKinds.foldl op s = { s with notices := ns } ∧
      ∀ k, ({ s with notices := ns } : State).notice k = F k (s.notice k) := by
  obtain ⟨ns, hns⟩ : ∃ ns, noticeKinds.foldl op s = { s with notices := ns } :=
    foldl_keeps (fun t => ∃ ns, t = { s with notices := ns }) op noticeKinds
      (fun t k _ ⟨ns, ht⟩ => ht ▸ hframe _ k) s ⟨s.notices, rfl⟩
  refine ⟨ns, hns, fun k => ?_⟩
  rw [← hns, foldl_notice hop noticeKinds noticeKinds_nodup s k, if_pos (mem_noticeKinds k)]

end Rewrites

theorem clearNotices_eq (set : Nat) (s : State) : clearNotices set s =
    if set < 2 ^ 19 then okay (noticeKinds.foldl (fun t k => if names set k then
      t.setNotice k { t.notice k with pending := false, repeated := false } else t) s) s.noticesData
    else refuse s .badValue := by
  simp only [clearNotices, checked_cons, checked_nil, noticeSetOk, decide_eq_true_eq]

theorem setNoticeEnables_eq (set : Nat) (s : State) : setNoticeEnables set s =
    if set < 2 ^ 19 then
      okay (noticeKinds.foldl (fun t k => t.setNotice k { t.notice k with enable := names set k }) s) (be 3 set)
    else refuse s .badValue := by
  simp only [setNoticeEnables, checked_cons, checked_nil, noticeSetOk, decide_eq_true_eq]

/-- The flags of the kinds that a set names are cleared (R168). -/
theorem State.clearNotices_rewrites (s : State) (set : Nat) :
    ∃ ns, noticeKinds.foldl (fun t k => if names set k then
        t.setNotice k { t.notice k with pending := false, repeated := false } else t) s = { s with notices := ns } ∧
      ∀ k, ({ s with notices := ns } : State).notice k =
        if set.testBit k.code then { s.notice k with pending := false, repeated := false } else s.notice k := by
  refine State.rewriteNotices
    (F := fun k n => if set.testBit k.code then { n with pending := false, repeated := false } else n)
    (fun t k => ?_) (fun t k j => ?_) s
  · split_ifs
    · exact ⟨_, rfl⟩
    · exact ⟨t.notices, rfl⟩
  · by_cases hk : set.testBit k.code = true
    · simp [names, hk, State.setNotice_notice]
    · by_cases hj : j = k <;> simp [names, hk, hj]

/-- Every kind's enable is written (R169). -/
theorem State.setNoticeEnables_rewrites (s : State) (set : Nat) :
    ∃ ns, noticeKinds.foldl (fun t k => t.setNotice k { t.notice k with enable := names set k }) s =
        { s with notices := ns } ∧
      ∀ k, ({ s with notices := ns } : State).notice k = { s.notice k with enable := set.testBit k.code } :=
  State.rewriteNotices (F := fun k n => { n with enable := set.testBit k.code }) (fun _ _ => ⟨_, rfl⟩)
    (fun _ _ _ => State.setNotice_notice ..) s

/-- Settles O14: the raise, the line, and the three commands of the notice set. -/
theorem noticesAreRaisedReadAndCleared : Obligations.NoticesAreRaisedReadAndCleared := by
  refine ⟨fun s k x => ⟨rfl, State.raise_self .., fun j hj => ?_, s.noticeLine_iff⟩, fun s hs => ?_⟩
  · rw [State.raise_notice, if_neg hj]
  intro snapshot
  have hsnapshot : s.noticesData = snapshot := s.noticesData_eq
  refine ⟨fun h => ?_, fun set h => ⟨fun hbad => ?_, fun hgood => ?_⟩, fun set h => ⟨fun hbad => ?_, fun hgood => ?_⟩⟩
  · exact exec_okay hs h rfl (congrArg (okay s) hsnapshot)
  · exact exec_refused hs h rfl (by rw [clearNotices_eq, if_neg hbad.not_gt])
  · obtain ⟨ns, hns, hnotice⟩ := s.clearNotices_rewrites set
    have htaken := (clearNotices_eq set s).trans (if_pos hgood)
    rw [hns, hsnapshot] at htaken
    exact ⟨_, exec_okay hs h rfl htaken, rfl, hnotice⟩
  · exact exec_refused hs h rfl (by rw [setNoticeEnables_eq, if_neg hbad.not_gt])
  · obtain ⟨ns, hns, hnotice⟩ := s.setNoticeEnables_rewrites set
    have htaken := (setNoticeEnables_eq set s).trans (if_pos hgood)
    rw [hns, be_three] at htaken
    exact ⟨_, exec_okay hs h rfl htaken, rfl, hnotice⟩

/-! ## READ_PART (R166) -/

theorem PartState.code_working {p : PartState} (h : p ≠ .retain) : byte p.code = bit (p == .purging) := by
  cases p with
  | running => rfl
  | purging => rfl
  | retain => exact absurd rfl h

theorem RestartKind.code_eq (k : RestartKind) : byte k.code = bit (k == .warm) := by cases k <;> rfl

theorem RestartCause.code_eq (c : RestartCause) : byte c.code = bit (c == .reset) := by cases c <;> rfl

/-- Settles O15: READ_PART is taken in every part state but RETAIN, and RETAIN's code is never sent. -/
theorem readPartReports : Obligations.ReadPartReports := by
  intro s h
  have hdata : s.partData = [0x0D, 0x5E, 0x24, 0x16, 0x01, byte s.part.code, byte s.restartKind.code,
      byte s.restartCause.code, bit s.purgeFinished, byte (s.commitments / 256), byte s.commitments,
      byte s.pool.length, byte ((2048 - s.chests.length) / 256), byte (2048 - s.chests.length),
      byte (if s.part = .purging then s.noticesAtPurge else s.pendingKinds)] := by
    rw [State.partData, flag_eq]
    rfl
  rw [PartState.code_working h.1, RestartKind.code_eq, RestartCause.code_eq] at hdata
  have hexec : exec .readPart s = .next (s.respond 0x7E { status := .ok, data := s.partData }) :=
    congrArg _ (takeCommand_always readPart h)
  rw [hexec, hdata]
  rfl

end Sys2Proof.Machine
end

section
/-! PROOFS. The part at rest (O5, O12): outside RUNNING no owner takes a call, in RETAIN no event of the port, the link or
a unit happens, and while PURGING each command but READ_PART is turned away with BUSY. -/

namespace Sys2Proof.Machine

/-! ## Station calls outside RUNNING (R90, R153, R179) -/

/-- The seven rows that take a call from the slot of station `a`. -/
def stationCalls (a : Nat) : List Instr :=
  [.callGross a, .callTare a, .callTest a, .callCharge a, .callDone a, .replyDone a, .replyFault a]

theorem takeFrom_waits {s : State} (hp : s.part ≠ .running) (a : Nat) (f : Call → Option State) : takeFrom a f s = s :=
  if_neg fun h => hp h.1

theorem callGross_waits {s : State} (hp : s.part ≠ .running) (a : Nat) : callGross a s = .next s := by
  have hnone : s.grossCall a = none := if_neg fun h => hp h.1
  rw [callGross, hnone]

theorem exec_stationCall_waits {s : State} (hp : s.part ≠ .running) (a : Nat) :
    ∀ i ∈ stationCalls a, exec i s = .next s := by
  have waits {i : Instr} {f : Call → Option State} (hi : exec i s = .next (takeFrom a f s)) : exec i s = .next s := by
    rw [hi, takeFrom_waits hp]
  have table : (stationCalls a).Forall (exec · s = .next s) :=
    ⟨callGross_waits hp a, waits rfl, waits rfl, waits rfl, waits rfl, waits rfl, waits rfl⟩
  exact List.forall_iff_forall_mem.mp table

/-! ## Host commands while PURGING (R179) -/

/-- A whole frame of a command that is not taken while PURGING. -/
theorem takeCommand_purging {α : Type} {s : State} {code : Byte} {read : List Byte → Option α} {p : α}
    (own : α → State → State × Reply) (h : s.latches code read p) (hs : s.part = .purging) :
    takeCommand code read false own s = s.refused code 0x02 := by
  obtain ⟨rest, hlatched, hread⟩ := State.latches_latched h
  simp only [takeCommand, hlatched, hread, hs, ne_eq, not_true_eq_false, Bool.not_false, and_self, if_true, if_false]
  rfl

/-- The row, if not READ_PART's, answers its whole frames with BUSY while PURGING; HOLD_LANE's are those with the force
option off (assumption 9). -/
def IsBusyRow (e : Instr × Byte × (List Byte → Bool)) : Prop :=
  e.1 ≠ .readPart → ∀ (s : State) (ps : List Byte), s.part = .purging → ps.length ≤ 100 → e.2.2 ps = true →
    (e.1 = .holdLane → ∀ n, readPair ps ≠ some (n, 1)) → s.buffer = .preparing (commandFrame e.2.1 ps) →
    exec e.1 s = .next (s.refused e.2.1 0x02)

theorem State.latches_purging {α : Type} {s : State} {code : Byte} {read : List Byte → Option α} {p : α}
    {ps : List Byte} (hs : s.part = .purging) (hlen : ps.length ≤ 100) (hb : s.buffer = .preparing (commandFrame code ps))
    (hread : read ps = some p) : s.latches code read p :=
  ⟨by rw [hs]; decide, ps, hlen, hb, hread⟩

theorem isBusyRow {α : Type} {read : List Byte → Option α} {i : Instr} {code : Byte}
    (own : α → State → State × Reply)
    (hi : ∀ s, exec i s = .next (takeCommand code read false own s) := by exact fun _ => rfl) :
    IsBusyRow (i, code, fun ps => (read ps).isSome) := by
  intro _ s ps hs hlen hwhole _ hb
  obtain ⟨p, hread⟩ := Option.isSome_iff_exists.mp hwhole
  exact (hi s).trans (congrArg _ (takeCommand_purging own (State.latches_purging hs hlen hb hread) hs))

theorem holdLane_isBusyRow : IsBusyRow (.holdLane, 0x42, fun ps => (readPair ps).isSome) := by
  intro _ s ps hs hlen hwhole hoff hb
  obtain ⟨⟨n, f⟩, hread⟩ := Option.isSome_iff_exists.mp hwhole
  have hf : f ≠ 1 := fun hf => hoff rfl n (hf ▸ hread)
  have h := State.latches_purging hs hlen hb hread
  exact (exec_holdLane h hf).trans (congrArg _ (takeCommand_purging holdLane h hs))

theorem hostCommands_busy : ∀ e ∈ hostCommands, IsBusyRow e := by
  have table : hostCommands.Forall IsBusyRow := ⟨
    isBusyRow setStation, isBusyRow readStation, isBusyRow setTareClass, isBusyRow readTareClass, isBusyRow openBulk,
    isBusyRow mixBulk, isBusyRow settleCharge, isBusyRow spendBulk, isBusyRow freeBulk, isBusyRow readBulk,
    isBusyRow openLot, isBusyRow closeLot, isBusyRow declareLot, isBusyRow retireLot, isBusyRow drawSample,
    isBusyRow readLot, isBusyRow readDeclaration, isBusyRow mapLane, isBusyRow unmapLaneCommand, holdLane_isBusyRow,
    isBusyRow releaseLane, isBusyRow readLane, isBusyRow readChest, isBusyRow assignHeld, isBusyRow returnChest,
    isBusyRow voidChest, isBusyRow pauseHead, isBusyRow resumeHead, isBusyRow flushHead, isBusyRow reprintChest,
    isBusyRow readHead, isBusyRow setVerify, isBusyRow verifyScale, isBusyRow cancelVerify, isBusyRow readNotices,
    isBusyRow clearNotices, isBusyRow setNoticeEnables, fun hother => absurd rfl hother, isBusyRow startPurge⟩
  exact List.forall_iff_forall_mem.mp table

/-- Settles O5: the rows that share no code, HOLD_LANE and HOLD_LANE_FORCE by the option byte, and the station calls. -/
theorem purgingAnswersBusy : Obligations.PurgingAnswersBusy := by
  refine ⟨fun s ps hs hlen => ⟨fun e he hother hwhole hoff hb => ?_, fun n hread hb => ?_⟩, fun s a hs => ?_⟩
  · exact hostCommands_busy e he hother s ps hs hlen hwhole hoff hb
  · have h := State.latches_purging hs hlen hb hread
    exact (exec_holdLaneForce h).trans (congrArg _ (takeCommand_purging holdLaneForce h hs))
  · exact exec_stationCall_waits (by rw [hs]; decide) a

/-! ## Every event in RETAIN (R175) -/

/-- The rows of the link at station `a`: a word, the three expiries and the loss. -/
def linkEvents (a : Nat) (w : Option LinkWord) : List Instr :=
  [.inboundWord a w, .announceWindowExpiry a, .stationLost a, .rejoinInhibitExpiry a, .refusalExpiry a]

/-- The expiries of the head and of the verification record of station `a`. -/
def unitExpiries (a : Nat) : List Instr := [.markTimeout a, .intervalExpiry a, .periodExpiry a, .graceExpiry a]

section Retained

variable {s : State} (hp : s.part = .retain)
include hp

theorem State.rdyLine_retain : s.rdyLine = false := by
  rw [State.rdyLine, hp]
  rfl

theorem State.noticeLine_retain : s.noticeLine = false := by
  rw [State.noticeLine, hp]
  rfl

theorem atStation_retain (a : Nat) (e : Bool) (t : State) : atStation a e t s = s := if_neg fun h => h.1 hp

theorem takeCommand_retain {α : Type} (code : Byte) (read : List Byte → Option α) (w : Bool)
    (own : α → State → State × Reply) : takeCommand code read w own s = s := by
  rw [takeCommand, State.latched_retain hp]

theorem exec_hostCommand_retain : ∀ i ∈ hostCommands.map (·.1), exec i s = .next s := by
  intro i hi
  obtain ⟨e, he, rfl⟩ := List.mem_map.mp hi
  obtain ⟨α, read, w, own, -, -, hrow⟩ := hostCommands_rows e he
  rcases hrow s with hexec | ⟨hexec, -⟩
  · rw [hexec, takeCommand_retain hp]
  · exact hexec

theorem exec_holdLaneForce_retain : exec .holdLaneForce s = .next s := by
  have hforce : s.latchedForce = false := by rw [State.latchedForce, State.latched_retain hp]
  have hrow : exec .holdLaneForce s =
      .next (if s.latchedForce then takeCommand 0x42 readPair false holdLaneForce s else s) := rfl
  rw [hrow, hforce]
  rfl

theorem takeUnknown_retain : takeUnknown s = s := by rw [takeUnknown, State.latched_retain hp]

theorem linkCycle_retain : linkCycle s = s := if_pos hp

theorem readWindow_retain (n : Nat) : readWindow n s = s := if_pos hp

theorem purgeComplete_retain : purgeComplete s = s := if_neg fun h => PartState.noConfusion (hp.symm.trans h.1)

theorem exec_atStation_retain {a : Nat} {e : Bool} {t : State} {i : Instr}
    (hi : exec i s = .next (atStation a e t s)) : exec i s = .next s := by
  rw [hi, atStation_retain hp]

theorem exec_linkEvent_retain (a : Nat) (w : Option LinkWord) : ∀ i ∈ linkEvents a w, exec i s = .next s := by
  have still := @exec_atStation_retain s hp a
  have table : (linkEvents a w).Forall (exec · s = .next s) := ⟨still rfl, still rfl, still rfl, still rfl, still rfl⟩
  exact List.forall_iff_forall_mem.mp table

theorem exec_unitExpiry_retain (a : Nat) : ∀ i ∈ unitExpiries a, exec i s = .next s := by
  have still := @exec_atStation_retain s hp a
  have table : (unitExpiries a).Forall (exec · s = .next s) := ⟨still rfl, still rfl, still rfl, still rfl⟩
  exact List.forall_iff_forall_mem.mp table

end Retained

theorem pwrgoodRise_underReset {s : State} (hw : s.pwrgood = false) (hr : s.resetAsserted = true) :
    pwrgoodRise s = { s with pwrgood := true } := by simp [pwrgoodRise, hw, hr]

theorem resetRelease_unpowered {s : State} (hw : s.pwrgood = false) (hr : s.resetAsserted = true) :
    resetRelease s = { s with resetAsserted := false } := by simp [resetRelease, hw, hr]

/-- Settles O12: the two lines, the two pins, the rows of the port, its windows, and the events at a station. -/
theorem retentionIsQuiet : Obligations.RetentionIsQuiet := by
  intro s hp
  refine ⟨State.rdyLine_retain hp, State.noticeLine_retain hp, fun hw hr => congrArg _ (pwrgoodRise_underReset hw hr),
    fun hw hr => congrArg _ (resetRelease_unpowered hw hr), fun i hi => ?_, fun n bytes => ?_, fun a w i hi => ?_⟩
  · rcases List.mem_append.mp hi with hi | hi
    · have single : [.holdLaneForce, .unknownCommand, .linkCycle, .purgeComplete].Forall (exec · s = .next s) :=
        ⟨exec_holdLaneForce_retain hp, congrArg _ (takeUnknown_retain hp), congrArg _ (linkCycle_retain hp),
          congrArg _ (purgeComplete_retain hp)⟩
      exact List.forall_iff_forall_mem.mp single i hi
    · exact exec_hostCommand_retain hp i hi
  · exact ⟨congrArg _ (readWindow_retain hp n), congrArg _ (windowEnd_retain hp bytes)⟩
  · have calls := exec_stationCall_waits (s := s) (by rw [hp]; decide) a
    have all := List.forall_mem_append.mpr ⟨exec_linkEvent_retain hp a w,
      List.forall_mem_append.mpr ⟨calls, exec_unitExpiry_retain hp a⟩⟩
    exact all i hi

end Sys2Proof.Machine
end

section
/-! PROOFS. The ways into RETAIN, the cold start out of it, and the season purge from PURGE to its completion
(O11, O9, O13). -/

namespace Sys2Proof.Machine

/-! ## The entry into RETAIN (R174, R176) -/

theorem State.enterRetain_works {s : State} (hp : s.part ≠ .retain) :
    s.enterRetain = { s with part := .retain, marker := some s.part.entered } := if_neg hp

theorem State.enterRetain_retain {s : State} (hp : s.part = .retain) : s.enterRetain = s := if_pos hp

theorem PartState.entered_eq (p : PartState) : p.entered = if p = .purging then .purging else .running := by
  cases p <;> rfl

theorem pwrgoodFall_powered {s : State} (hw : s.pwrgood = true) :
    pwrgoodFall s = { s.enterRetain with pwrgood := false } := if_pos hw

theorem resetAssert_powered {s : State} (hw : s.pwrgood = true) (hr : s.resetAsserted = false) :
    resetAssert s = { s.enterRetain with resetAsserted := true } := by simp [resetAssert, hw, hr]

/-- In RETAIN an assertion of RESET records its pin, with PWRGOOD high and low. -/
theorem resetAssert_retain {s : State} (hp : s.part = .retain) (hr : s.resetAsserted = false) :
    resetAssert s = { s with resetAsserted := true } := by
  simp [resetAssert, hr, State.enterRetain_retain hp]

theorem vbakBelow_retain {s : State} (hp : s.part = .retain) : vbakBelow s = { s with marker := none } := if_pos hp

theorem supplyFails_powered {s : State} (hw : s.pwrgood = true) :
    supplyFails s = { s with part := .retain, pwrgood := false } := if_pos hw

/-! ## The cold start (R175, R177) -/

theorem State.start_cold {s : State} (h : s.marker = none) (c : RestartCause) :
    s.start c = { State.reset with pending := s.pending, restartCause := c } := by
  rw [State.start, h]
  rfl

theorem pwrgoodRise_cold {s : State} (hp : s.part = .retain) (hm : s.marker = none) (hw : s.pwrgood = false)
    (hr : s.resetAsserted = false) :
    pwrgoodRise s = { State.reset with pending := s.pending, restartCause := .power } := by
  rw [pwrgoodRise_starts hp hw hr, State.start_cold (by exact hm)]

theorem resetRelease_cold {s : State} (hp : s.part = .retain) (hm : s.marker = none) (hw : s.pwrgood = true)
    (hr : s.resetAsserted = true) :
    resetRelease s = { State.reset with pending := s.pending, restartCause := .reset } := by
  rw [resetRelease_starts hp hw hr, State.start_cold (by exact hm)]

/-- Settles O9, by the cause of the start. -/
theorem startWithoutMarkerIsCold : Obligations.StartWithoutMarkerIsCold := fun _ hp hm =>
  ⟨fun hw hr => congrArg _ (pwrgoodRise_cold hp hm hw hr), fun hw hr => congrArg _ (resetRelease_cold hp hm hw hr)⟩

/-- Settles O11: the entry while the part works, each event in RETAIN, and the failure that makes no entry. -/
theorem retentionIsEntered : Obligations.RetentionIsEntered := by
  refine fun s => ⟨fun hw hr hp => ⟨s.part.entered, s.part.entered_eq, ?_, ?_⟩, fun hp hw => ?_,
    fun hp hr => congrArg _ (resetAssert_retain hp hr), fun hp => congrArg _ (vbakBelow_retain hp),
    fun _ hm hw hr => ⟨supplyFails s, rfl, ?_, ?_⟩⟩
  · exact congrArg _ ((pwrgoodFall_powered hw).trans (by rw [State.enterRetain_works hp]))
  · exact congrArg _ ((resetAssert_powered hw hr).trans (by rw [State.enterRetain_works hp]))
  · exact congrArg _ ((pwrgoodFall_powered hw).trans (by rw [State.enterRetain_retain hp]))
  · rw [supplyFails_powered hw, ← hm]
  · rw [supplyFails_powered hw]
    have cold := pwrgoodRise_cold (s := { s with part := .retain, pwrgood := false }) rfl hm rfl hr
    exact congrArg Host.Outcome.next cold

/-! ## PURGE taken or refused (R178) -/

theorem startPurge_eq (s : State) : startPurge () s =
    if (∀ e ∈ s.lots, e.2.state = .complete ∨ e.2.state = .declared) ∧ ∀ e ∈ s.bulks, e.2.state ≠ .charging
    then (addresses.foldl (fun t a => t.modHead a Head.messageEnds)
      { s with part := .purging, purgeTimer := some 35, noticesAtPurge := s.pendingKinds },
      { status := .started, data := [] })
    else refuse s .badState := by
  simp only [startPurge, checked_cons, checked_nil, List.all_eq_true, Bool.or_eq_true, beq_iff_eq, bne_iff_ne, ite_and]

/-- The messages in progress end at the heads alone (R132). -/
theorem State.messagesEnd (s : State) :
    ∃ hs, addresses.foldl (fun t a => t.modHead a Head.messageEnds) s = { s with heads := hs } ∧
      ∀ a, ({ s with heads := hs } : State).head a =
        if 1 ≤ a ∧ a ≤ 14 then { s.head a with message := none, reply := none } else s.head a :=
  foldl_modHead Head.messageEnds s

/-! ## The completion (R180) -/

theorem purgeComplete_expired {s : State} (hp : s.part = .purging) (ht : s.purgeTimer = some 0) :
    purgeComplete s = s.purged := if_pos ⟨hp, ht⟩

theorem Head.purged_state (h : Head) : h.purged.state = match h.state with
    | .paused r => .paused r
    | .pausePending => .paused .host
    | _ => .idle := by
  unfold Head.purged
  cases h.state <;> rfl

/-- Settles O13: PURGE by its two checks, and its completion by what the end of a purge leaves. -/
theorem purgeEmptiesRecords : Obligations.PurgeEmptiesRecords := by
  refine ⟨fun s hs h => ?_, fun s hp ht => ⟨s.purged, congrArg Host.Outcome.next (purgeComplete_expired hp ht), ?_⟩⟩
  · intro may
    refine ⟨fun hno => ?_, fun hmay => ?_⟩
    · exact exec_refused hs h rfl ((startPurge_eq s).trans (if_neg hno))
    · have htaken := (startPurge_eq s).trans (if_pos hmay)
      obtain ⟨heads, hfold, hhead⟩ :=
        ({ s with part := .purging, purgeTimer := some 35, noticesAtPurge := s.pendingKinds } : State).messagesEnd
      rw [hfold] at htaken
      have hexec : exec .purge s = .next (takeCommand 0x7F readNone false startPurge s) := rfl
      rw [takeCommand_running false startPurge h hs, htaken] at hexec
      exact ⟨_, hexec, rfl, hhead⟩
  · obtain ⟨hframe, hhead, hnotice⟩ := s.purged_spec
    refine ⟨hframe, fun a h1 h14 => ?_, fun k hk => (hnotice k).trans (if_neg hk), (hnotice .purgeDone).trans (if_pos rfl)⟩
    rw [hhead, if_pos ⟨h1, h14⟩]
    exact ⟨rfl, rfl, rfl, rfl, (s.head a).purged_state⟩

end Sys2Proof.Machine
end

section
/-! PROOFS. What a host sends is what the part reads (O56, first part): each figure, text, mass and optional figure is read
back with the bytes after it left over, and the parameters of each command figure by figure. -/

namespace Sys2Proof.Machine

/-! ## Figures (R183) -/

@[simp] theorem length_be (n v : Nat) : (be n v).length = n := by
  induction n generalizing v with
  | zero => rfl
  | succ n ih => simp [be, ih]

theorem beNat_concat (bs : List Byte) (b : Byte) : beNat (bs ++ [b]) = beNat bs * 256 + b.toNat := by
  simp [beNat, List.foldl_append]

theorem beNat_be {n v : Nat} (h : v < 256 ^ n) : beNat (be n v) = v := by
  induction n generalizing v with
  | zero =>
    obtain rfl : v = 0 := by simpa using h
    rfl
  | succ n ih =>
    have hhigh : v / 256 < 256 ^ n := Nat.div_lt_of_lt_mul (by rwa [Nat.pow_succ'] at h)
    rw [be, beNat_concat, ih hhigh, BitVec.toNat_ofNat]
    omega

theorem readU_be {n v : Nat} (h : v < 256 ^ n) (rest : List Byte) : readU n (be n v ++ rest) = some (v, rest) := by
  simp [readU, List.take_left', List.drop_left', beNat_be h]

theorem readS4_massParam {x : Int} (hlo : -2147483648 ≤ x) (hhi : x < 2147483648) (rest : List Byte) :
    readS4 (massParam x ++ rest) = some (x, rest) := by
  have hbytes : (BitVec.ofInt 32 x).toNat < 256 ^ 4 := (BitVec.ofInt 32 x).isLt
  have hvalue : (BitVec.ofNat 32 (BitVec.ofInt 32 x).toNat).toInt = x := by
    rw [BitVec.ofNat_toNat, BitVec.setWidth_eq, BitVec.toInt_ofInt]
    exact Int.bmod_eq_of_le (by omega) (by omega)
  rw [readS4, massParam, readU_be hbytes, Option.map_some, hvalue]

theorem readText_textParam {t : List Byte} (h : t.length < 256) (rest : List Byte) :
    readText (textParam t ++ rest) = some (t, rest) := by
  have hlen : (byte t.length).toNat = t.length := by
    rw [byte, BitVec.toNat_ofNat]; exact Nat.mod_eq_of_lt h
  simp [textParam, u1_eq, readText, hlen]

/-- A presence byte of 0 or 1 is one of those that are sent; one out of range has no bytes that a sender writes. -/
theorem readOpt_optionalParam {o : Option (Option Nat)} (h : o = some none ∨ ∃ x, o = some (some x) ∧ x < 256)
    (rest : List Byte) : readOpt 1 (optionalParam (o.getD none) ++ rest) = some (o, rest) := by
  rcases h with rfl | ⟨x, rfl, hx⟩
  · rfl
  · have hread : readU 1 (u1 x ++ rest) = some (x, rest) := readU_be hx rest
    rw [Option.getD_some, optionalParam, List.append_assoc, u1_eq 1, List.singleton_append, readOpt,
      if_pos (show (byte 1).toNat = 1 from rfl), hread, Option.map_some]

theorem readEnd_nil {α : Type} (v : α) : readEnd v [] = some v := rfl

/-! ## One figure after the other

A reader goes on with the figure that it has read and the bytes that are left. -/

theorem bind_of_some {α β : Type} {x : Option α} {a : α} (h : x = some a) (f : α → Option β) :
    (x >>= f) = f a := by
  rw [h]; rfl

theorem readU_be_bind {α : Type} {n v : Nat} (h : v < 256 ^ n) (rest : List Byte) (f : Nat × List Byte → Option α) :
    (readU n (be n v ++ rest) >>= f) = f (v, rest) := bind_of_some (readU_be h rest) f

theorem readU_last_bind {α : Type} {n v : Nat} (h : v < 256 ^ n) (f : Nat × List Byte → Option α) :
    (readU n (be n v) >>= f) = f (v, []) := by
  simpa only [List.append_nil] using readU_be_bind h [] f

theorem readS4_bind {α : Type} {x : Int} (hlo : -2147483648 ≤ x) (hhi : x < 2147483648) (rest : List Byte)
    (f : Int × List Byte → Option α) : (readS4 (massParam x ++ rest) >>= f) = f (x, rest) :=
  bind_of_some (readS4_massParam hlo hhi rest) f

theorem readS4_last_bind {α : Type} {x : Int} (hlo : -2147483648 ≤ x) (hhi : x < 2147483648)
    (f : Int × List Byte → Option α) : (readS4 (massParam x) >>= f) = f (x, []) := by
  simpa only [List.append_nil] using readS4_bind hlo hhi [] f

theorem readText_bind {α : Type} {t : List Byte} (h : t.length < 256) (rest : List Byte)
    (f : List Byte × List Byte → Option α) : (readText (textParam t ++ rest) >>= f) = f (t, rest) :=
  bind_of_some (readText_textParam h rest) f

theorem readOpt_bind {α : Type} {o : Option (Option Nat)} (h : o = some none ∨ ∃ x, o = some (some x) ∧ x < 256)
    (rest : List Byte) (f : Option (Option Nat) × List Byte → Option α) :
    (readOpt 1 (optionalParam (o.getD none) ++ rest) >>= f) = f (o, rest) :=
  bind_of_some (readOpt_optionalParam h rest) f

/-! ## Forms of one or two figures -/

theorem readOne_byte {n : Nat} (h : n < 256) : readOne [byte n] = some n := readU_last_bind (n := 1) h _

theorem readPair_bytes {m n : Nat} (hm : m < 256) (hn : n < 256) : readPair [byte m, byte n] = some (m, n) :=
  (readU_be_bind (n := 1) hm (be 1 n) _).trans (readU_last_bind (n := 1) hn _)

theorem readChestId_be {n : Nat} (h : n < 65536) : readChestId (be 2 n) = some n := readU_last_bind (n := 2) h _

theorem readNoticeSet_be {n : Nat} (h : n < 16777216) : readNoticeSet (be 3 n) = some n := readU_last_bind (n := 3) h _

/-! ## Parameters of the commands -/

theorem readSetStation_bytes {p : SetStationParams} (hs : p.station < 256) (hk : p.kind < 256) (hi : p.interval < 65536) :
    readSetStation p.bytes = some p := by
  simp only [readSetStation, SetStationParams.bytes, u1, u2, List.append_assoc]
  simp (disch := omega) only [↓readU_be_bind, readU_last_bind, readEnd_nil]

theorem readSetTareClass_bytes {p : TareClassParams} (hk : p.number < 256) (hn : p.nominal < 65536)
    (hs : p.spread < 65536)
    (hw : p.window = some none ∨ ∃ lo hi, p.window = some (some (lo, hi)) ∧ lo < 65536 ∧ hi < 65536) :
    readSetTareClass p.bytes = some p := by
  obtain ⟨number, nominal, spread, window⟩ := p
  rcases hw with rfl | ⟨lo, hi, rfl, hlo, hhi⟩
  · simp only [readSetTareClass, TareClassParams.bytes, u1, u2, List.append_assoc, Option.getD_some]
    simp (disch := omega) only [↓readU_be_bind, readU_last_bind, ↓reduceIte, zero_ne_one, readEnd_nil]
  · simp only [readSetTareClass, TareClassParams.bytes, u1, u2, List.append_assoc, Option.getD_some]
    simp (disch := omega) only [↓readU_be_bind, readU_last_bind, ↓reduceIte, readEnd_nil]

/-- What the bytes of a component can hold. -/
def ComponentParams.fits (c : ComponentParams) : Prop :=
  c.bin < 256 ∧ c.source.length < 256 ∧ c.minShare < 65536 ∧ c.maxShare < 65536

theorem readComponents_bytes {cs : List ComponentParams} (h : ∀ c ∈ cs, c.fits) (rest : List Byte) :
    readComponents cs.length (cs.flatMap ComponentParams.bytes ++ rest) = some (cs, rest) := by
  induction cs with
  | nil => rfl
  | cons c cs ih =>
    obtain ⟨hbin, hsource, hmin, hmax⟩ := h c List.mem_cons_self
    have hmore := ih (fun d hd => h d (List.mem_cons_of_mem c hd))
    simp only [List.length_cons, List.flatMap_cons, readComponents, ComponentParams.bytes, u1, u2, List.append_assoc]
    simp (disch := omega) only [↓readU_be_bind, ↓readText_bind, bind_of_some hmore]

theorem readOpenBulk_bytes {p : OpenBulkParams} (hk : p.slot < 256) (hn : p.number < 65536) (hg : p.grade.length < 256)
    (hlo : -2147483648 ≤ p.planned) (hhi : p.planned < 2147483648) (ha : p.allowance < 65536)
    (hcount : p.components.length < 256) (hcs : ∀ c ∈ p.components, c.fits) : readOpenBulk p.bytes = some p := by
  have hread := readComponents_bytes hcs []
  rw [List.append_nil] at hread
  simp only [readOpenBulk, OpenBulkParams.bytes, u1, u2, List.append_assoc]
  simp (disch := omega) only [↓readU_be_bind, ↓readText_bind, ↓readS4_bind, bind_of_some hread, readEnd_nil]

theorem readSettle_bytes {p : SettleParams} (hk : p.slot < 256) (hc : p.component < 256) (hlo : -2147483648 ≤ p.mass)
    (hhi : p.mass < 2147483648) : readSettle p.bytes = some p := by
  simp only [readSettle, SettleParams.bytes, u1, List.append_assoc]
  simp (disch := omega) only [↓readU_be_bind, readS4_last_bind, readEnd_nil]

theorem readOpenLot_bytes {p : OpenLotParams} (hk : p.slot < 256) (hi : p.invoice < 4294967296)
    (hgarden : p.garden.length < 256) (hgrade : p.grade.length < 256) (hseason : p.season < 256) (hbulk : p.bulk < 256)
    (hclass : p.tareClass < 256) (hlo : -2147483648 ≤ p.declNet) (hhi : p.declNet < 2147483648) (hstep : p.step < 65536)
    (hmargin : p.margin < 65536) (hplanned : p.planned < 256) (hlimit : p.sampleLimit < 65536)
    (hover : p.overmark < 256) : readOpenLot p.bytes = some p := by
  simp only [readOpenLot, OpenLotParams.bytes, u1, u2, u4, List.append_assoc]
  simp (disch := omega) only [↓readU_be_bind, ↓readText_bind, ↓readS4_bind, readU_last_bind, readEnd_nil]

theorem readSample_bytes {p : SampleParams} (hk : p.slot < 256) (hn : p.serial < 256) (hm : p.mass < 65536)
    (hh : p.head < 256) : readSample p.bytes = some p := by
  simp only [readSample, SampleParams.bytes, u1, u2, List.append_assoc]
  simp (disch := omega) only [↓readU_be_bind, readU_last_bind, readEnd_nil]

theorem readMapLane_bytes {p : MapLaneParams} (hn : p.lane < 256) (ht : p.target < 256) (hs : p.scale < 256)
    (hmode : p.tareMode < 256) (hw : p.watch < 256)
    (hstencil : p.stencil = some none ∨ ∃ x, p.stencil = some (some x) ∧ x < 256)
    (hclass : p.tareClass = some none ∨ ∃ x, p.tareClass = some (some x) ∧ x < 256) : readMapLane p.bytes = some p := by
  simp only [readMapLane, MapLaneParams.bytes, u1, List.append_assoc]
  simp (disch := omega) only [↓readU_be_bind, readU_last_bind, ↓readOpt_bind hstencil, ↓readOpt_bind hclass, readEnd_nil]

theorem readRelease_bytes {p : ReleaseParams} (hn : p.lane < 256) (ho : p.one < 256) (hw : p.watch < 256) :
    readRelease p.bytes = some p := by
  simp only [readRelease, ReleaseParams.bytes, u1, List.append_assoc]
  simp (disch := omega) only [↓readU_be_bind, readU_last_bind, readEnd_nil]

theorem readAssign_bytes {p : AssignParams} (hc : p.chest < 65536) (hk : p.slot < 256) (hh : p.head < 256) :
    readAssign p.bytes = some p := by
  simp only [readAssign, AssignParams.bytes, u1, u2, List.append_assoc]
  simp (disch := omega) only [↓readU_be_bind, readU_last_bind, readEnd_nil]

theorem readReprint_bytes {p : ReprintParams} (hc : p.chest < 65536) (hh : p.head < 256) :
    readReprint p.bytes = some p := by
  simp only [readReprint, ReprintParams.bytes, u1, u2]
  simp (disch := omega) only [↓readU_be_bind, readU_last_bind, readEnd_nil]

theorem readSetVerify_bytes {p : SetVerifyParams} (hs : p.station < 256) (hp : p.period < 65536) (hg : p.grace < 256)
    (ha : p.action < 256) (ht : p.tolerance < 65536) : readSetVerify p.bytes = some p := by
  simp only [readSetVerify, SetVerifyParams.bytes, u1, u2, List.append_assoc]
  simp (disch := omega) only [↓readU_be_bind, readU_last_bind, readEnd_nil]

theorem readVerify_bytes {p : VerifyParams} (hs : p.station < 256) (hlo : -2147483648 ≤ p.mass)
    (hhi : p.mass < 2147483648) : readVerify p.bytes = some p := by
  simp only [readVerify, VerifyParams.bytes, u1]
  simp (disch := omega) only [↓readU_be_bind, readS4_last_bind, readEnd_nil]

/-! ## Records named by a form byte (R23, R38, R67) -/

/-- The form byte is read before anything that follows it. -/
theorem readU_form {form : Nat} (h : form < 256) (rest : List Byte) : readU 1 (byte form :: rest) = some (form, rest) :=
  readU_be (n := 1) h rest

theorem readNamed_slot {n : Nat} (h : n < 256) (width : Nat) :
    readNamed width ((Named.slot n).bytes width) = some (.slot n) := by
  simp only [readNamed, Named.bytes, u1]
  simp (disch := omega) only [↓readU_be_bind, readU_last_bind, ↓reduceIte, readEnd_nil]

theorem readNamed_number {width n : Nat} (h : n < 256 ^ width) :
    readNamed width ((Named.number n).bytes width) = some (.number n) := by
  simp only [readNamed, Named.bytes, u1]
  simp (disch := omega) only [↓readU_be_bind, readU_last_bind h, ↓reduceIte, one_ne_zero, readEnd_nil]

/-- A form byte out of range reads as such, whatever follows it (assumption 11). -/
theorem readNamed_bad {form : Nat} (h2 : 2 ≤ form) (h : form < 256) (width : Nat) (rest : List Byte) :
    readNamed width (byte form :: rest) = some .bad := by
  have h0 : form ≠ 0 := by omega
  have h1 : form ≠ 1 := by omega
  simp [readNamed, readU_form h, h0, h1]

theorem readChestName_id {n : Nat} (h : n < 65536) : readChestName (ChestName.id n).bytes = some (.id n) := by
  simp only [readChestName, ChestName.bytes, u1, u2]
  simp (disch := omega) only [↓readU_be_bind, readU_last_bind, ↓reduceIte, readEnd_nil]

theorem readChestName_serial {k n : Nat} (hk : k < 256) (hn : n < 256) :
    readChestName (ChestName.serial k n).bytes = some (.serial k n) := by
  simp only [readChestName, ChestName.bytes, u1, List.append_assoc]
  simp (disch := omega) only [↓readU_be_bind, readU_last_bind, ↓reduceIte, one_ne_zero, readEnd_nil]

theorem readChestName_position {n : Nat} (h : n < 256) :
    readChestName (ChestName.position n).bytes = some (.position n) := by
  simp only [readChestName, ChestName.bytes, u1]
  simp (disch := omega) only [↓readU_be_bind, readU_last_bind, ↓reduceIte, OfNat.ofNat_ne_zero, OfNat.ofNat_ne_one, readEnd_nil]

/-- A form byte out of range reads as such, whatever follows it (assumption 11). -/
theorem readChestName_bad {form : Nat} (h3 : 3 ≤ form) (h : form < 256) (rest : List Byte) :
    readChestName (byte form :: rest) = some .bad := by
  have h0 : form ≠ 0 := by omega
  have h1 : form ≠ 1 := by omega
  have h2 : form ≠ 2 := by omega
  simp [readChestName, readU_form h, h0, h1, h2]

end Sys2Proof.Machine
end

section
/-! PROOFS. Link words (O56, second part): the word of an address, a kind and a payload has odd parity and gives all three
back, so each word that the part sends carries what it says, and each word of a station is read as the item it was made of. -/

namespace Sys2Proof.Machine

/-! ## Parity (R144) -/

theorem foldl_xor_true (f : Nat → Bool) (l : List Nat) :
    l.foldl (fun odd i => odd ^^ f i) true = !l.foldl (fun odd i => odd ^^ f i) false := by
  have start (b : Bool) : l.foldl (fun odd i => odd ^^ f i) b = (b ^^ l.foldl (fun odd i => odd ^^ f i) false) := by
    induction l generalizing b with
    | nil => simp
    | cons i l ih => rw [List.foldl_cons, List.foldl_cons, ih, ih (false ^^ f i), Bool.false_xor, Bool.xor_assoc]
  simpa using start true

/-- The last bit counts as any other, so setting it where it was clear turns the parity. -/
theorem oddParity_or_one {w : LinkWord} (h : w.getLsbD 0 = false) : oddParity (w ||| 1#32) = !oddParity w := by
  have hrange : List.range 32 = 0 :: List.range' 1 31 := rfl
  have hrest : ∀ b : Bool, (List.range' 1 31).foldl (fun odd i => odd ^^ (w ||| 1#32).getLsbD i) b =
      (List.range' 1 31).foldl (fun odd i => odd ^^ w.getLsbD i) b := by
    refine fun b => List.foldl_ext _ _ b fun odd i hi => ?_
    have hi : i ≠ 0 := by have := List.mem_range'_1.mp hi; omega
    simp [BitVec.getLsbD_one, hi]
  unfold oddParity
  rw [hrange, List.foldl_cons, List.foldl_cons, hrest, h, Bool.xor_false]
  simp [foldl_xor_true]

theorem oddParity_linkWord (a k p : Nat) : oddParity (linkWord a k p) = true := by
  have heven : (BitVec.ofNat 32 (a * 2 ^ 28 + k * 2 ^ 24 + p % 2 ^ 23 * 2)).getLsbD 0 = false := by
    rw [BitVec.getLsbD_ofNat, Nat.testBit_zero]
    simp; omega
  rw [linkWord]
  split
  · assumption
  · next hparity => rw [oddParity_or_one heven, Bool.eq_false_of_not_eq_true hparity, Bool.not_false]

/-! ## Address, kind and payload (section 11.2) -/

/-- The address, kind and payload stand in their bits, with the parity bit below them. -/
theorem toNat_linkWord {a k p : Nat} (ha : a < 16) (hk : k < 16) (hp : p < 8388608) :
    ∃ parity ≤ 1, (linkWord a k p).toNat = a * 268435456 + k * 16777216 + p * 2 + parity := by
  have hword : (BitVec.ofNat 32 (a * 2 ^ 28 + k * 2 ^ 24 + p % 2 ^ 23 * 2)).toNat =
      2 ^ 1 * (a * 134217728 + k * 8388608 + p) := by
    rw [BitVec.toNat_ofNat]; omega
  rw [linkWord]
  split
  · exact ⟨0, by omega, by omega⟩
  · refine ⟨1, le_rfl, ?_⟩
    rw [BitVec.toNat_or, hword, BitVec.toNat_ofNat, ← Nat.two_pow_add_eq_or_of_lt (by decide)]
    omega

theorem carries_linkWord {a k p : Nat} (ha : a < 16) (hk : k < 16) (hp : p < 8388608) :
    carries (linkWord a k p) a k p := by
  obtain ⟨parity, hparity, hword⟩ := toNat_linkWord ha hk hp
  refine ⟨oddParity_linkWord a k p, ?_, ?_, ?_⟩
  · rw [wordAddress, hword, bitsAt]; omega
  · rw [wordKind, hword, bitsAt]; omega
  · rw [wordPayload, hword, bitsAt]; omega

/-! ## The words that the part sends -/

theorem carries_cycleHead {n : Nat} (h : n < 65536) : carries (cycleHead n) 0 15 n := by
  rw [cycleHead, Nat.mod_eq_of_lt (b := 2 ^ 16) h]
  exact carries_linkWord (by decide) (by decide) (by omega)

theorem Join.code_lt (j : Join) : j.code < 5 := by
  cases j <;> simp [Join.code]

theorem carries_pollWord {a : Nat} (ha : a < 16) (j : Join) : carries (pollWord a j) a 0 j.code :=
  carries_linkWord ha (by decide) (j.code_lt.trans (by decide))

theorem AnswerCode.code_lt (c : AnswerCode) : c.code < 28 := by
  cases c <;> decide

theorem carries_answerWord {a : Nat} (ha : a < 16) (c : AnswerCode) {n : Nat} (h : n < 65536) :
    carries (answerWord a (.answer c n)) a 1 (c.code * 65536 + n) := by
  have hc := c.code_lt
  rw [answerWord, Nat.mod_eq_of_lt (b := 2 ^ 16) h]
  exact carries_linkWord ha (by decide) (by omega)

theorem carries_grantWord {a : Nat} (ha : a < 16) {m : Nat} (h : m < 524288) :
    carries (answerWord a (.grant m)) a 2 m := by
  rw [answerWord, Nat.mod_eq_of_lt (b := 2 ^ 19) h]
  exact carries_linkWord ha (by decide) (by omega)

theorem carries_testWord {a : Nat} (ha : a < 16) {m : Nat} (h : m < 131072) :
    carries (orderWord a (.test m)) a 3 m := by
  rw [orderWord, Nat.mod_eq_of_lt (b := 2 ^ 17) h]
  exact carries_linkWord ha (by decide) (by omega)

/-! ## Mark words (R118, R184) -/

theorem charCode_of_mem : ∀ b ∈ characters, charCode b = some (characters.idxOf b) := by decide

/-- The link code of a text's character at `k`, and 63 past its end (R184). -/
def codeAt (t : List Byte) (k : Nat) : Nat := (t[k]?.map characters.idxOf).getD 63

theorem threeCodes_eq (t : List Byte) (i : Nat) :
    threeCodes t i = codeAt t i * 4096 + codeAt t (i + 1) * 64 + codeAt t (i + 2) := rfl

theorem charsWord_eq (t : List Byte) (i : Nat) : charsWord t i =
    (t[i]?.elim 63 fun b => (charCode b).getD 63) * 2 ^ 12 + (t[i + 1]?.elim 63 fun b => (charCode b).getD 63) * 2 ^ 6 +
      t[i + 2]?.elim 63 fun b => (charCode b).getD 63 := by
  unfold charsWord
  dsimp only
  cases t[i]? <;> cases t[i + 1]? <;> cases t[i + 2]? <;> rfl

variable {t : List Byte}

theorem elim_charCode (h : ∀ b ∈ t, b ∈ characters) (k : Nat) :
    (t[k]?.elim 63 fun b => (charCode b).getD 63) = codeAt t k := by
  unfold codeAt
  cases hb : t[k]? with
  | none => rfl
  | some b => simp [charCode_of_mem b (h b (List.mem_of_getElem? hb))]

theorem charsWord_eq_threeCodes (h : ∀ b ∈ t, b ∈ characters) (i : Nat) : charsWord t i = threeCodes t i := by
  rw [charsWord_eq, threeCodes_eq, elim_charCode h, elim_charCode h, elim_charCode h]
  omega

/-- Every code in a mark word fits its six bits; 63 stands for no character. -/
theorem codeAt_lt (h : ∀ b ∈ t, b ∈ characters) (k : Nat) : codeAt t k < 64 := by
  unfold codeAt
  cases hb : t[k]? with
  | none => decide
  | some b => exact (List.idxOf_lt_length_of_mem (h b (List.mem_of_getElem? hb))).trans (by decide)

theorem threeCodes_lt (h : ∀ b ∈ t, b ∈ characters) (i : Nat) : threeCodes t i < 262144 := by
  have h0 := codeAt_lt h i
  have h1 := codeAt_lt h (i + 1)
  have h2 := codeAt_lt h (i + 2)
  rw [threeCodes_eq]
  omega

/-- What the fields of a mark can hold (R118). -/
def MarkFields.fits (f : MarkFields) : Prop :=
  f.serial < 128 ∧ f.invoice < 1048576 ∧ f.printedNet < 524288 ∧ f.gross < 524288 ∧ f.season < 128 ∧
    ∀ b ∈ f.garden ++ f.grade, b ∈ characters

/-- The first word: the kind, the serial and the invoice's top bit. -/
theorem MarkFields.content_zero {f : MarkFields} (h : f.fits) :
    f.content 0 = f.kind.code * 131072 + f.serial * 1024 + f.invoice / 524288 := by
  obtain ⟨hserial, hinvoice, -⟩ := h
  rw [MarkFields.content, if_pos rfl, bitsAt]
  omega

theorem MarkFields.content_garden {f : MarkFields} (h : f.fits) {i : Nat} (h1 : 1 ≤ i) (h4 : i ≤ 4) :
    f.content i = threeCodes f.garden (3 * (i - 1)) := by
  obtain ⟨-, -, -, -, -, htext⟩ := h
  rw [MarkFields.content, if_neg (by omega), if_pos h4]
  exact charsWord_eq_threeCodes (fun b hb => htext b (List.mem_append_left _ hb)) _

theorem MarkFields.content_grade {f : MarkFields} (h : f.fits) {i : Nat} (h5 : 5 ≤ i) (h6 : i ≤ 6) :
    f.content i = threeCodes f.grade (3 * (i - 5)) := by
  obtain ⟨-, -, -, -, -, htext⟩ := h
  rw [MarkFields.content, if_neg (by omega), if_neg (by omega), if_pos h6]
  exact charsWord_eq_threeCodes (fun b hb => htext b (List.mem_append_right _ hb)) _

/-- The last four words: the invoice's other bits, the printed net, the gross and the season. -/
theorem MarkFields.content_figures {f : MarkFields} (h : f.fits) :
    f.content 7 = f.invoice % 524288 ∧ f.content 8 = f.printedNet ∧ f.content 9 = f.gross ∧ f.content 10 = f.season := by
  obtain ⟨-, -, hnet, hgross, hseason, -⟩ := h
  exact ⟨rfl, Nat.mod_eq_of_lt hnet, Nat.mod_eq_of_lt hgross, Nat.mod_eq_of_lt hseason⟩

/-- The content of a word leaves the bits of its index alone. -/
theorem MarkFields.content_lt {f : MarkFields} (h : f.fits) {i : Nat} (hi : i ≤ 10) : f.content i < 524288 := by
  obtain ⟨h7, h8, h9, h10⟩ := MarkFields.content_figures h
  have hfits := h
  obtain ⟨hserial, hinvoice, hnet, hgross, hseason, htext⟩ := h
  have hgarden := threeCodes_lt (fun b hb => htext b (List.mem_append_left f.grade hb)) (3 * (i - 1))
  have hgrade := threeCodes_lt (fun b hb => htext b (List.mem_append_right f.garden hb)) (3 * (i - 5))
  have hcases : i = 0 ∨ (1 ≤ i ∧ i ≤ 4) ∨ (5 ≤ i ∧ i ≤ 6) ∨ i = 7 ∨ i = 8 ∨ i = 9 ∨ i = 10 := by omega
  rcases hcases with rfl | ⟨h1, h4⟩ | ⟨h5, h6⟩ | rfl | rfl | rfl | rfl
  · have hkind : f.kind.code < 3 := by cases f.kind <;> decide
    rw [MarkFields.content_zero hfits]
    omega
  · rw [MarkFields.content_garden hfits h1 h4]
    omega
  · rw [MarkFields.content_grade hfits h5 h6]
    omega
  · omega
  · omega
  · omega
  · omega

theorem carries_markWord {a : Nat} (ha : a < 16) {f : MarkFields} (h : f.fits) {i : Nat} (hi : i ≤ 10) :
    carries (markWord a f i) a 4 (i * 524288 + f.content i) := by
  have hcontent := MarkFields.content_lt h hi
  exact carries_linkWord ha (by decide) (by omega)

/-! ## The words that a station sends (R144, R185) -/

theorem payloadReading_payload {r : Reading} (h : r.grams < 262144) : payloadReading r.payload = r := by
  obtain ⟨grams, stable, overload, underload⟩ := r
  simp only at h
  simp only [payloadReading, Reading.payload, bitsAt, Reading.mk.injEq]
  cases stable <;> cases overload <;> cases underload <;> simp <;> omega

theorem Reading.payload_lt (r : Reading) : r.payload < 8388608 := by
  unfold Reading.payload
  split <;> split <;> split <;> omega

/-- What the payload of an inbound item can hold (section 11.2). -/
def Inbound.fits : Inbound → Prop
  | .announce (.b n) => n < 524288
  | .announce (.c n) => n < 524288
  | .call (.charge n) => n < 524288
  | .call (.done n) => n < 524288
  | .call (.gross r) => r.grams < 262144
  | .call (.tare r) => r.grams < 262144
  | .call (.test r) => r.grams < 262144
  | _ => True

theorem Inbound.fits_of {i : Inbound}
    (hfigure : ∀ n, i = .announce (.b n) ∨ i = .announce (.c n) ∨ i = .call (.charge n) ∨ i = .call (.done n) → n < 524288)
    (hreading : ∀ r, i = .call (.gross r) ∨ i = .call (.tare r) ∨ i = .call (.test r) → r.grams < 262144) : i.fits := by
  cases i with
  | announce page =>
    cases page with
    | a kind => trivial
    | b n => exact hfigure n (.inl rfl)
    | c n => exact hfigure n (.inr (.inl rfl))
  | call c =>
    cases c with
    | gross r => exact hreading r (.inl rfl)
    | tare r => exact hreading r (.inr (.inl rfl))
    | test r => exact hreading r (.inr (.inr rfl))
    | charge n => exact hfigure n (.inr (.inr (.inl rfl)))
    | done n => exact hfigure n (.inr (.inr (.inr rfl)))
    | _ => trivial
  | _ => trivial

/-- The kind of the item's word (section 11.2). -/
def Inbound.kindCode : Inbound → Nat
  | .present => 0
  | .announce _ => 1
  | .call c => c.kindCode
  | .unknown => 8

def Inbound.payload : Inbound → Nat
  | .announce page => page.payload
  | .call c => c.payload
  | _ => 0

theorem Inbound.word_eq (i : Inbound) (a : Nat) : i.word a = linkWord a i.kindCode i.payload := by
  cases i <;> rfl

theorem Inbound.kindCode_lt (i : Inbound) : i.kindCode < 16 := by
  cases i with
  | call c => cases c <;> simp [Inbound.kindCode, Call.kindCode]
  | _ => simp [Inbound.kindCode]

theorem Inbound.payload_lt (i : Inbound) : i.payload < 8388608 := by
  cases i with
  | announce page =>
    cases page with
    | a kind => cases kind <;> decide
    | b n => simp only [Inbound.payload, Page.payload]; omega
    | c n => simp only [Inbound.payload, Page.payload]; omega
  | call c =>
    cases c with
    | gross r => exact r.payload_lt
    | tare r => exact r.payload_lt
    | test r => exact r.payload_lt
    | charge n => simp only [Inbound.payload, Call.payload]; omega
    | done n => simp only [Inbound.payload, Call.payload]; omega
    | replyDone => decide
    | replyFault code => cases code <;> decide
  | _ => decide

theorem Inbound.carries_word {a : Nat} (ha : a < 16) (i : Inbound) : carries (i.word a) a i.kindCode i.payload := by
  rw [i.word_eq]
  exact carries_linkWord ha i.kindCode_lt i.payload_lt

/-- An announce by its page code, bits 22 and 21 of the payload. -/
theorem inboundOf_announce {w : LinkWord} (hk : wordKind w = 1) : inboundOf w =
    if bitsAt (wordPayload w) 21 2 = 0 then .announce (.a (pageKind (bitsAt (wordPayload w) 0 2)))
    else if bitsAt (wordPayload w) 21 2 = 1 then .announce (.b (bitsAt (wordPayload w) 0 19))
    else if bitsAt (wordPayload w) 21 2 = 2 then .announce (.c (bitsAt (wordPayload w) 0 19))
    else .unknown := by
  simp [inboundOf, hk]

theorem pageKind_code (k : StationKind) : pageKind k.code = k := by
  cases k <;> rfl

theorem payloadFault_code (c : FaultCode) : payloadFault c.code = c := by
  cases c <;> rfl

theorem inboundOf_page {w : LinkWord} {page : Page} (hk : wordKind w = 1) (hp : wordPayload w = page.payload)
    (h : (Inbound.announce page).fits) : inboundOf w = .announce page := by
  rw [inboundOf_announce hk, hp]
  cases page with
  | a kind => cases kind <;> rfl
  | b n =>
    have hpage : bitsAt (Page.b n).payload 21 2 = 1 := by simp only [bitsAt, Page.payload]; omega
    have hvalue : bitsAt (Page.b n).payload 0 19 = n := by
      simp only [Inbound.fits] at h; simp only [bitsAt, Page.payload]; omega
    simp [hpage, hvalue]
  | c n =>
    have hpage : bitsAt (Page.c n).payload 21 2 = 2 := by simp only [bitsAt, Page.payload]; omega
    have hvalue : bitsAt (Page.c n).payload 0 19 = n := by
      simp only [Inbound.fits] at h; simp only [bitsAt, Page.payload]; omega
    simp [hpage, hvalue]

theorem bitsAt_low {n : Nat} (h : n < 524288) : bitsAt (n % 2 ^ 19) 0 19 = n := by
  unfold bitsAt
  omega

theorem inboundOf_call {w : LinkWord} {c : Call} (hk : wordKind w = c.kindCode) (hp : wordPayload w = c.payload)
    (h : (Inbound.call c).fits) : inboundOf w = .call c := by
  unfold inboundOf
  rw [hk, hp]
  cases c with
  | gross r => simp [Call.kindCode, Call.payload, payloadReading_payload h]
  | tare r => simp [Call.kindCode, Call.payload, payloadReading_payload h]
  | test r => simp [Call.kindCode, Call.payload, payloadReading_payload h]
  | charge n => simp only [Call.kindCode, Call.payload, bitsAt_low h]; rfl
  | done n => simp only [Call.kindCode, Call.payload, bitsAt_low h]; rfl
  | replyDone => rfl
  | replyFault code => cases code <;> rfl

/-- The word of an item is read as that item. -/
theorem inboundOf_word {a : Nat} (ha : a < 16) {i : Inbound} (h : i.fits) : inboundOf (i.word a) = i := by
  obtain ⟨-, -, hk, hp⟩ := i.carries_word ha
  cases i with
  | announce page => exact inboundOf_page hk hp h
  | call c => exact inboundOf_call hk hp h
  | present => simp [inboundOf, hk, Inbound.kindCode]
  | unknown => simp [inboundOf, hk, Inbound.kindCode]

/-! ## The statement -/

theorem answerCodes_codes : answerCodes.map AnswerCode.code = List.range 28 := by decide

theorem mem_answerCodes (c : AnswerCode) : c ∈ answerCodes := by
  cases c <;> decide

/-- The words sent to a station, by their kinds. -/
theorem stationWords_carry {a : Nat} (ha : a < 16) :
    (∀ j, carries (pollWord a j) a 0 j.code) ∧
    (∀ c n, n < 65536 → carries (answerWord a (.answer c n)) a 1 (c.code * 65536 + n)) ∧
    (∀ m, m < 524288 → carries (answerWord a (.grant m)) a 2 m) ∧ carries (answerWord a .refuse) a 5 0 ∧
    (∀ m, m < 131072 → carries (orderWord a (.test m)) a 3 m) ∧ carries (orderWord a .testEnd) a 3 4194304 :=
  ⟨carries_pollWord ha, fun c _ h => carries_answerWord ha c h, fun _ h => carries_grantWord ha h,
    carries_linkWord ha (by decide) (by decide), fun _ h => carries_testWord ha h,
    carries_linkWord ha (by decide) (by decide)⟩

/-- Settles O56: each reader, each word of the part and each word of a station, in the statement's order. -/
theorem sentIsRead : Obligations.SentIsRead := by
  unfold Obligations.SentIsRead
  refine ⟨fun _ => readSetStation_bytes, fun _ => readSetTareClass_bytes,
    fun _ hk hn hg hlo hhi ha hc hcs => readOpenBulk_bytes hk hn hg hlo hhi ha hc hcs, fun _ => readSettle_bytes,
    fun _ => readOpenLot_bytes, fun _ => readSample_bytes,
    fun _ hn ht hs hmode hw hstencil hclass => readMapLane_bytes hn ht hs hmode hw hstencil hclass,
    fun _ => readRelease_bytes, fun _ => readAssign_bytes, fun _ => readReprint_bytes, fun _ => readSetVerify_bytes,
    fun _ => readVerify_bytes, fun _ => readOne_byte, fun _ _ => readPair_bytes, fun _ => readChestId_be,
    fun _ => readNoticeSet_be, rfl,
    fun width _ => ⟨fun _ h => readNamed_slot h width, fun _ => readNamed_number,
      fun _ rest h2 h => readNamed_bad h2 h width rest⟩,
    fun _ => readChestName_id, fun _ _ => readChestName_serial, fun _ => readChestName_position,
    fun _ rest h3 h => readChestName_bad h3 h rest, fun _ => carries_cycleHead, answerCodes_codes, mem_answerCodes,
    fun a ha => ?_, fun _ _ _ => carries_linkWord, fun a i ha hfigure hreading => ?_⟩
  · obtain ⟨hpoll, hanswer, hgrant, hrefuse, htest, hend⟩ := stationWords_carry ha
    refine ⟨fun j => ?_, hanswer, hgrant, hrefuse, htest, hend, ?_⟩
    · have h := hpoll j
      cases j <;> exact h
    · intro f i hserial hinvoice hnet hgross hseason htext hi
      have hfits : f.fits := ⟨hserial, hinvoice, hnet, hgross, hseason, htext⟩
      have hword := carries_markWord ha hfits hi
      obtain ⟨h7, h8, h9, h10⟩ := MarkFields.content_figures hfits
      have hgarden {i : Nat} := MarkFields.content_garden hfits (i := i)
      have hgrade {i : Nat} := MarkFields.content_grade hfits (i := i)
      interval_cases i
      · rw [MarkFields.content_zero hfits] at hword
        cases hkind : f.kind <;> simpa [hkind, JobKind.code] using hword
      · rwa [hgarden (by decide) (by decide)] at hword
      · rwa [hgarden (by decide) (by decide)] at hword
      · rwa [hgarden (by decide) (by decide)] at hword
      · rwa [hgarden (by decide) (by decide)] at hword
      · rwa [hgrade (by decide) (by decide)] at hword
      · rwa [hgrade (by decide) (by decide)] at hword
      · rwa [h7] at hword
      · rwa [h8] at hword
      · rwa [h9] at hword
      · rwa [h10] at hword
  · have hfits := Inbound.fits_of hfigure hreading
    obtain ⟨hparity, haddress, -⟩ := i.carries_word ha
    exact ⟨hparity, haddress, inboundOf_word ha hfits⟩

end Sys2Proof.Machine
end

section
/-! PROOFS. The data of the reads (O31): a layout whose fields follow each other without a gap stands at its offsets, and
each response is the bytes of its fields, one after the other. -/

namespace Sys2Proof.Machine

/-! ## Fields that follow each other -/

/-- The fields follow each other without a gap from offset `i` to offset `j`, each as long as its size says. -/
def spans : Nat → List (Nat × Nat × List Byte) → Nat → Prop
  | i, [], j => i = j
  | i, e :: fields, j => e.1 = i ∧ e.2.2.length = e.2.1 ∧ spans (i + e.2.1) fields j

/-- The bytes of the fields, one after the other. -/
def fieldBytes (fields : List (Nat × Nat × List Byte)) : List Byte := fields.flatMap (fun e => e.2.2)

variable {fields : List (Nat × Nat × List Byte)}

theorem spans_length {i j : Nat} (h : spans i fields j) : i + (fieldBytes fields).length = j := by
  induction fields generalizing i with
  | nil => exact h
  | cons e fields ih =>
    obtain ⟨-, hsize, hrest⟩ := h
    have := ih hrest
    simp only [fieldBytes, List.flatMap_cons, List.length_append] at this ⊢
    omega

/-- Fields that follow each other stand at their offsets, whatever comes before and after them. -/
theorem laidOut_within {j : Nat} (before rest : List Byte) (h : spans before.length fields j) :
    laidOut (before ++ (fieldBytes fields ++ rest)) fields := by
  induction fields generalizing before with
  | nil => simp [laidOut]
  | cons e fields ih =>
    obtain ⟨hoffset, hsize, hrest⟩ := h
    have htail := ih (before ++ e.2.2) (by rwa [List.length_append, hsize])
    refine List.forall_mem_cons.mpr ⟨?_, ?_⟩
    · rw [bytesAt, hoffset, List.drop_left, fieldBytes, List.flatMap_cons, List.append_assoc, ← hsize, List.take_left]
    · simpa only [laidOut, fieldBytes, List.flatMap_cons, List.append_assoc] using htail

theorem laidOut_from {data rest : List Byte} {i j : Nat} (hi : i ≤ data.length)
    (hdata : data.drop i = fieldBytes fields ++ rest) (h : spans i fields j) : laidOut data fields := by
  have hlaid := laidOut_within (data.take i) rest (by rwa [List.length_take_of_le hi])
  rwa [← hdata, List.take_append_drop] at hlaid

theorem laidOut_whole {data : List Byte} {n : Nat} (hdata : data = fieldBytes fields) (h : spans 0 fields n) :
    data.length = n ∧ laidOut data fields := by
  have hlength := spans_length h
  have hlaid := laidOut_from (rest := []) (Nat.zero_le data.length) (by rw [List.drop_zero, List.append_nil, hdata]) h
  exact ⟨by rw [hdata]; omega, hlaid⟩

/-! ## Figures in bytes (R183, R184) -/

@[simp] theorem length_s4 (x : Int) : (s4 x).length = 4 := by
  unfold s4
  split <;> rfl

theorem length_textField {width : Nat} {t : List Byte} (h : t.length ≤ width) :
    (textField width t).length = width + 1 := by
  simp only [textField, List.length_append, List.length_cons, List.length_replicate]
  omega

theorem weighted_eq (w : Nat) (bs : List Bool) : weighted w bs = w * bitSet bs := by
  induction bs generalizing w with
  | nil => rfl
  | cons b bs ih => cases b <;> simp [weighted, bitSet, ih] <;> ring

/-- Presence bits as a number, bit 0 first, by the weights 1, 2, 4 and so on. -/
theorem bitSet_eq (bs : List Bool) : bitSet bs = weighted 1 bs := by
  rw [weighted_eq, Nat.one_mul]

/-! ## The model's writers, by their bytes

Each is proved by rewriting and not by `rfl`: simp then records its uses as rewrites, and the kernel never compares two
layouts by computing them. -/

theorem u1_bytes (n : Nat) : u1 n = [byte n] := by rw [u1_eq]

theorem u2_bytes (n : Nat) : u2 n = be 2 n := by rw [u2]

theorem u4_bytes (n : Nat) : u4 n = be 4 n := by rw [u4]

theorem text_bytes (width : Nat) (t : List Byte) : text width t = textField width t := by
  rw [text, textField, u1_eq, List.singleton_append, zeros]

theorem orZero_bytes (n : Nat) (o : Option Nat) : orZero n o = be n (o.getD 0) := by rw [orZero]

theorem be_byte (n : Nat) : be 1 n = [byte n] := by rw [← u1_eq, u1]

theorem optional_bytes (n : Nat) (o : Option Nat) : optional n o = figure n o := by rw [optional_eq, figure]

theorem fieldBytes_nil : fieldBytes [] = [] := by rw [fieldBytes, List.flatMap_nil]

theorem fieldBytes_cons (i n : Nat) (bytes : List Byte) (fields : List (Nat × Nat × List Byte)) :
    fieldBytes ((i, n, bytes) :: fields) = bytes ++ fieldBytes fields := by
  rw [fieldBytes, List.flatMap_cons, fieldBytes]

/-! ## Parts of the layouts -/

theorem Lot.commitment_eq (l : Lot) : l.commitment = l.committed := by
  unfold Lot.commitment Lot.committed
  cases l.state <;> rfl

/-- A component's claim in READ_BULK: a grant in flight and an uncertain mass, each behind its presence byte (R49, R67). -/
def Claim.bytes : Claim → List Byte
  | .grant g => 1 :: (s4 g ++ List.replicate 5 0)
  | .uncertain g => List.replicate 5 0 ++ 1 :: s4 g
  | .none => List.replicate 10 0

theorem Claim.bytes_grant (g : Nat) : (Claim.grant g).bytes = flag true ++ s4 g ++ flag false ++ zeros 4 := by
  rw [flag_eq, List.append_assoc, List.append_assoc, List.singleton_append]
  rfl

theorem Claim.bytes_uncertain (g : Nat) : (Claim.uncertain g).bytes = flag false ++ zeros 4 ++ flag true ++ s4 g := by
  rw [flag_eq true, List.append_assoc, List.singleton_append]
  rfl

theorem Claim.bytes_none : Claim.none.bytes = zeros 10 := rfl

theorem Component.data_eq (c : Component) : c.data =
    [byte c.bin] ++ textField 6 c.source ++ be 2 c.minShare ++ be 2 c.maxShare ++ s4 c.charged ++ be 2 c.count ++
      c.claim.bytes := by
  unfold Component.data
  cases c.claim with
  | grant g => simp only [u1_bytes, u2_bytes, text_bytes, Claim.bytes_grant]
  | uncertain g => simp only [u1_bytes, u2_bytes, text_bytes, Claim.bytes_uncertain]
  | none => simp only [u1_bytes, u2_bytes, text_bytes, Claim.bytes_none]

/-- The lot and the serial of a job's chest, and zeros while it has none (R129). -/
def Place.numbers : Place → Nat × Nat
  | .accepted k n _ => (k, n)
  | _ => (0, 0)

theorem State.jobData_eq (s : State) (j : Job) : s.jobData j =
    be 2 j.chest ++ [byte j.kind.code, byte (s.chestD j.chest).place.numbers.1,
      byte (s.chestD j.chest).place.numbers.2, byte (s.chestD j.chest).mark.code] := by
  unfold State.jobData
  simp only [u1_bytes, u2_bytes, List.append_assoc]
  rfl

theorem Verification.length_data (v : Verification) : v.data.length = 39 := by
  unfold Verification.data
  cases v.lastTest <;> simp [u1_bytes, u2_bytes, orZero_bytes, flag_eq, zeros]

/-- From byte 39 on, the data of READ_STATION are the verification record of a scale, and zeros for any other kind. -/
theorem State.drop_stationData (s : State) (a : Nat) : (s.stationData a).drop 39 =
    if (s.station a).kind = .scale then (s.verification a).data else zeros 39 := by
  unfold State.stationData
  refine List.drop_left' ?_
  simp [u1_bytes, u2_bytes, orZero_bytes, flag_eq]

theorem State.length_stationData (s : State) (a : Nat) : (s.stationData a).length = 78 := by
  have hlast : ((s.stationData a).drop 39).length = 39 := by
    rw [s.drop_stationData]
    split
    · exact Verification.length_data _
    · exact List.length_replicate
  rw [List.length_drop] at hlast
  omega

/-! ## The statement -/

/-- Settles O31, read by read: the writers of each response give the bytes of its fields, and fields that follow each other
stand at their offsets. READ_STATION is cut at byte 39, where a scale's verification record begins. -/
theorem layoutsAreAsSpecified : Obligations.LayoutsAreAsSpecified := by
  unfold Obligations.LayoutsAreAsSpecified
  refine ⟨?_, rfl, fun _ => rfl, ?_, ?_, ?_, ?_, rfl, ?_, ?_, ?_⟩
  · intro l hgarden hgrade
    refine laidOut_whole ?_ ?_
    · unfold Lot.data
      simp only [u1_bytes, u2_bytes, u4_bytes, text_bytes, bitSet_eq, flag_eq, orZero_bytes, fieldBytes_cons, fieldBytes_nil,
        List.append_assoc, Lot.commitment_eq]
      simp only [List.cons_append, List.nil_append, List.append_nil]
      rcases l.cause with _ | _ | _ <;> simp only [FinishCause.code, byte, BitVec.ofNat_eq_ofNat]
    · simp [spans, length_textField, hgarden, hgrade]
  · intro l d hgarden hgrade
    refine laidOut_whole ?_ ?_
    · unfold declarationData
      simp only [u1_bytes, u2_bytes, u4_bytes, text_bytes, bitSet_eq, fieldBytes_cons, fieldBytes_nil,
        List.append_assoc]
      simp only [List.cons_append, List.nil_append, List.append_nil]
    · simp [spans, length_textField, hgarden, hgrade]
  · intro s id c
    refine ⟨?_, laidOut_whole ?_ ?_⟩
    · unfold State.readRecord
      cases s.chest? id with
      | none =>
        simp only [State.freeChestData, u1_bytes, u2_bytes, zeros, List.append_assoc]
        rfl
      | some c => rfl
    · unfold State.chestData State.poolPosition
      simp only [u1_bytes, u2_bytes, bitSet_eq, flag_eq, orZero_bytes, be_byte, fieldBytes_cons, fieldBytes_nil,
        List.append_assoc, Option.isSome_map]
      simp only [List.cons_append, List.nil_append, List.append_nil]
      rcases c.place with _ | _ | _ <;> simp
    · simp [spans]
  · intro s a
    refine ⟨s.length_stationData a, laidOut_from (rest := (s.stationData a).drop 39) (j := 39) (Nat.zero_le _) ?_ ?_,
      fun hkind => ?_, fun hkind => ?_⟩
    · rw [s.drop_stationData]
      unfold State.stationData
      simp only [u1_bytes, u2_bytes, bitSet_eq, flag_eq, orZero_bytes, be_byte, fieldBytes_cons, fieldBytes_nil,
        List.append_assoc, List.drop_zero]
      simp only [List.cons_append, List.nil_append]
      -- The order's byte, by the message and the order; the two resolved figures, by the abilities' kind.
      cases (s.head a).message <;> rcases (s.station a).order with _ | _ | _ <;>
        rcases (s.station a).abilities with _ | _ | _ | _ <;> rfl
    · simp [spans]
    · rw [bytesAt, s.drop_stationData, if_neg hkind, zeros, List.take_replicate, Nat.min_self]
    · refine laidOut_from (rest := []) (i := 39) (j := 78) (by rw [s.length_stationData]; decide) ?_ ?_
      · rw [s.drop_stationData, if_pos hkind]
        unfold Verification.data
        simp only [u1_bytes, u2_bytes, bitSet_eq, flag_eq, orZero_bytes, be_byte, fieldBytes_cons, fieldBytes_nil,
          List.append_assoc]
        simp only [List.cons_append, List.nil_append, List.append_nil]
        cases (s.verification a).state <;> cases (s.verification a).lastTest <;> simp [zeros]
      · cases (s.verification a).lastTest <;> simp [spans]
  · intro s k
    refine ⟨s.classLocked k, s.classLocked_iff k, fun h => ?_, fun c h => ?_⟩
    · simp only [State.classData, h, optional_bytes, flag_eq]
      rfl
    · simp only [State.classData, h, optional_bytes, flag_eq, u2_bytes, Option.bind_some]
      rcases c.window with _ | ⟨lo, hi⟩ <;> simp [figure, bit, zeros, List.replicate_succ]
  · intro b
    simp only [bulkData, u1_bytes, u2_bytes, text_bytes, flag_eq, listed, funext Component.data_eq, Component.capRoom,
      Bulk.limit, List.append_assoc]
    simp only [List.cons_append, List.nil_append]
    -- All but the components is the same; of a component, all but its claim.
    simp only [List.cons.injEq, List.append_cancel_left_eq, List.append_cancel_right_eq, true_and]
    refine congrArg (List.flatMap · b.components) (funext fun c => ?_)
    simp only [List.cons.injEq, List.append_cancel_left_eq, true_and]
    cases c.claim <;> rfl
  · intro s n
    refine ⟨fun h => ?_, fun l h => ?_⟩
    · simp only [State.laneData, h]
      rfl
    · simp only [State.laneData, h, u1_bytes, optional_bytes, flag_eq, List.append_assoc]
      simp only [List.cons_append, List.nil_append]
      cases l.target <;> cases l.state <;> rfl
  · intro s a
    unfold State.headData
    simp only [u1_bytes, optional_bytes, flag_eq, listed, funext s.jobData_eq, List.append_assoc]
    simp only [List.cons_append, List.nil_append]
    -- The pause reason and the fault code, by the state; the pace, by the abilities' kind.
    rcases (s.head a).state with _ | _ | _ | _ | _ | _ | _ <;> rcases (s.station a).abilities with _ | _ | _ | _ <;> rfl

end Sys2Proof.Machine
end

section
/-! PROOFS. A step of a queue with a command in front (O1). -/

namespace Sys2Proof.Machine

/-- Settles O1: the second equation of `step`, with the state it reads the queue from written out. -/
theorem stepTakesFrontCommand : Obligations.StepTakesFrontCommand := fun _ _ _ => rfl

end Sys2Proof.Machine
end
